-- ==== Sys2Proof/Word.lean ====
section
/-! DEFINITION. The word types of the block: spec/00_scope.md R12, R13, R15 and the widths of R11. -/

namespace Sys2Proof

/-- An instruction word: "A 32-bit unsigned value" (R100). -/
abbrev Word := BitVec 32

/-- One byte of DRAM. -/
abbrev Byte := BitVec 8

/-- A register specifier `rd`, `rs1` or `rs2`, 0 to 31 (R20). -/
abbrev Reg := BitVec 5

/-- A PC: the Stage-1 `base` and `loc` (PC_W = 32, spec/92 D2; log entry 15). -/
abbrev Pc := BitVec 32

/-- A recorded or extracted immediate: the 32-bit pattern of an `i32` (R12, R15). -/
abbrev Imm := BitVec 32

/-- Packed registers (R33). -/
abbrev Packed := BitVec 16

/-- An absolute DRAM address (ADDR_W = 64, spec/92 D3; log entry 15). -/
abbrev Addr := BitVec 64

/-- The value of a DRAM access of up to 16 bytes; an access of `W` bytes uses bits `8W-1 : 0` (log entry 16). -/
abbrev Value := BitVec 128

end Sys2Proof
end

