-- ==== Sys2Proof/Config.lean ====
section
/-! DEFINITION. What an implementation fixes (spec/00_scope.md R11) and the one free value of the model. -/

namespace Sys2Proof

/-- The parameters of R11 that belong to one build of the block. They stand in State as data that no step writes,
so a statement over every state holds for every value of them (log entry 7). -/
structure Params where
  /-- `N`, the Stage-1 batch length. -/
  batchN : Nat
  /-- `OUT_CAP`, the most elements a Stage-2 column holds; `none` is unbounded, the default. -/
  outCap : Option Nat
  /-- `HAS_SCALAR`, whether the single-instruction decode exists. -/
  hasScalar : Bool
  deriving DecidableEq, Repr

/-- The default of the `base` argument of `dram_init` (R41, R72). -/
def Config.defaultBase : Addr := 0x80000000#64

/-- The number of DRAM addresses, `2^ADDR_W` (spec/92 D3). -/
def Config.addrSpace : Nat := 2 ^ 64

/-- `dram_init`, the initial contents of DRAM (R39, R381): FREE VALUE. The first argument counts the constructions of the
region, the second is the byte's offset. It has no body, so nothing can be proved of a value (log entry 9). -/
opaque Config.dramInit : Nat → Nat → Byte

end Sys2Proof
end

