-- ==== Sys2Proof/Syntax.lean ====
section
/-! DEFINITION. The syntax: the 39 instructions of spec/opcode_table.json, the operation tags and classes of Stage-2, the
rejection reasons, and the record Stage-1 makes of one word. -/

namespace Sys2Proof

/-- One instruction word by its row of spec/opcode_table.json and its operand fields, every bit the row does not fix
included: the `rd` and `rs1` bits that `ecall` and `ebreak` do not check (R120) are fields too (log entry 18).
A writing operation with `rd = 0` is an instruction here; its MEANING is that its lane is dropped (R186, log entry 5).
Operand order: destination, then sources, then the immediate as the word holds it (`off` of a branch or JAL is the byte
offset, 13 or 21 bits, R105, R107). -/
inductive Instr where
  | add (rd rs1 rs2 : Reg)
  | sub (rd rs1 rs2 : Reg)
  | xor (rd rs1 rs2 : Reg)
  | or (rd rs1 rs2 : Reg)
  | and (rd rs1 rs2 : Reg)
  | sll (rd rs1 rs2 : Reg)
  | srl (rd rs1 rs2 : Reg)
  | sra (rd rs1 rs2 : Reg)
  | slt (rd rs1 rs2 : Reg)
  | sltu (rd rs1 rs2 : Reg)
  | addi (rd rs1 : Reg) (imm : BitVec 12)
  | xori (rd rs1 : Reg) (imm : BitVec 12)
  | ori (rd rs1 : Reg) (imm : BitVec 12)
  | andi (rd rs1 : Reg) (imm : BitVec 12)
  | slli (rd rs1 : Reg) (shamt : BitVec 5)
  | srli (rd rs1 : Reg) (shamt : BitVec 5)
  | srai (rd rs1 : Reg) (shamt : BitVec 5)
  | slti (rd rs1 : Reg) (imm : BitVec 12)
  | sltiu (rd rs1 : Reg) (imm : BitVec 12)
  | lb (rd rs1 : Reg) (imm : BitVec 12)
  | lh (rd rs1 : Reg) (imm : BitVec 12)
  | lw (rd rs1 : Reg) (imm : BitVec 12)
  | lbu (rd rs1 : Reg) (imm : BitVec 12)
  | lhu (rd rs1 : Reg) (imm : BitVec 12)
  | sb (rs1 rs2 : Reg) (imm : BitVec 12)
  | sh (rs1 rs2 : Reg) (imm : BitVec 12)
  | sw (rs1 rs2 : Reg) (imm : BitVec 12)
  | beq (rs1 rs2 : Reg) (off : BitVec 13)
  | bne (rs1 rs2 : Reg) (off : BitVec 13)
  | blt (rs1 rs2 : Reg) (off : BitVec 13)
  | bge (rs1 rs2 : Reg) (off : BitVec 13)
  | bltu (rs1 rs2 : Reg) (off : BitVec 13)
  | bgeu (rs1 rs2 : Reg) (off : BitVec 13)
  | jal (rd : Reg) (off : BitVec 21)
  | jalr (rd rs1 : Reg) (imm : BitVec 12)
  | lui (rd : Reg) (imm20 : BitVec 20)
  | auipc (rd : Reg) (imm20 : BitVec 20)
  | ecall (rd rs1 : Reg)
  | ebreak (rd rs1 : Reg)
  deriving DecidableEq, Repr

/-- The operation tag: "a closed enumeration of 39 values, in the source's order" (R31). -/
inductive OpTag where
  | add
  | sub
  | xor
  | or
  | and
  | sll
  | srl
  | sra
  | slt
  | sltu
  | addi
  | xori
  | ori
  | andi
  | slli
  | srli
  | srai
  | slti
  | sltiu
  | lb
  | lh
  | lw
  | lbu
  | lhu
  | sb
  | sh
  | sw
  | beq
  | bne
  | blt
  | bge
  | bltu
  | bgeu
  | jal
  | jalr
  | lui
  | auipc
  | ecall
  | ebreak
  deriving DecidableEq, Repr

/-- The class Stage-2 gives an operation (R182, R187). -/
inductive OpClass where
  /-- R: register-register. -/
  | rtype
  /-- IA: OP-IMM, the shift-immediates included. -/
  | ialu
  /-- LD: loads. -/
  | load
  /-- ST: stores. -/
  | store
  /-- BR: branches. -/
  | branch
  /-- JR: JALR. -/
  | jumpReg
  /-- JL: JAL. -/
  | jumpLink
  /-- UP: LUI and AUIPC. -/
  | upper
  /-- SYS: ECALL and EBREAK. -/
  | system
  deriving DecidableEq, Repr

/-- The six rejection reasons (R184, R191). -/
inductive Reason where
  | opcode
  | funct3
  | funct7
  | shamtHigh
  | imm
  | x0Write
  deriving DecidableEq, Repr

/-- The Stage-1 record of one word: six fields and five immediates (R24, R152 to R158). -/
structure Lane where
  opcode : BitVec 7
  rd : Reg
  funct3 : BitVec 3
  rs1 : Reg
  rs2 : Reg
  funct7 : BitVec 7
  immI : Imm
  immS : Imm
  immB : Imm
  immU : Imm
  immJ : Imm
  deriving DecidableEq, Repr

/-- What the decoder answers. -/
inductive Decoded where
  /-- The instruction whose row of the opcode table the word matches. -/
  | instr (i : Instr)
  /-- No row matches: the first test of R182 that fails. -/
  | reject (r : Reason)
  /-- Fewer than four bytes were given: there is no word (R100). -/
  | truncated
  deriving DecidableEq, Repr

/-- What `classify` answers (R182). -/
inductive Verdict where
  | accept (op : OpTag) (cls : OpClass)
  | reject (r : Reason)
  deriving DecidableEq, Repr

end Sys2Proof
end

