-- ==== Sys2Proof/WellFormed.lean ====
section
/-! DEFINITION. Which terms of `Instr` are instruction words: the checks the operand types do not make. -/

namespace Sys2Proof

/-- A branch offset has bit 0 clear: "bit 0 implicitly zero" (R105, R156). -/
def branchOffsetOk (off : BitVec 13) : Bool :=
  !off.getLsbD 0

/-- A JAL offset has bit 0 clear (R107, R158) and bits 14:12, the funct3 field of the word, all zero (R117). -/
def jalOffsetOk (off : BitVec 21) : Bool :=
  !off.getLsbD 0 && off.extractLsb' 12 3 == 0#3

/-- The instruction is the reading of some word. -/
def Instr.wf : Instr → Bool
  | .add _ _ _ => true
  | .sub _ _ _ => true
  | .xor _ _ _ => true
  | .or _ _ _ => true
  | .and _ _ _ => true
  | .sll _ _ _ => true
  | .srl _ _ _ => true
  | .sra _ _ _ => true
  | .slt _ _ _ => true
  | .sltu _ _ _ => true
  | .addi _ _ _ => true
  | .xori _ _ _ => true
  | .ori _ _ _ => true
  | .andi _ _ _ => true
  | .slli _ _ _ => true
  | .srli _ _ _ => true
  | .srai _ _ _ => true
  | .slti _ _ _ => true
  | .sltiu _ _ _ => true
  | .lb _ _ _ => true
  | .lh _ _ _ => true
  | .lw _ _ _ => true
  | .lbu _ _ _ => true
  | .lhu _ _ _ => true
  | .sb _ _ _ => true
  | .sh _ _ _ => true
  | .sw _ _ _ => true
  | .beq _ _ off => branchOffsetOk off
  | .bne _ _ off => branchOffsetOk off
  | .blt _ _ off => branchOffsetOk off
  | .bge _ _ off => branchOffsetOk off
  | .bltu _ _ off => branchOffsetOk off
  | .bgeu _ _ off => branchOffsetOk off
  | .jal _ off => jalOffsetOk off
  | .jalr _ _ _ => true
  | .lui _ _ => true
  | .auipc _ _ => true
  | .ecall _ _ => true
  | .ebreak _ _ => true

end Sys2Proof
end

