-- ==== Sys2Proof/Decode.lean ====
section
/-! DEFINITION. Stage-1 extraction (spec/41), the decoder, the classification tree of Stage-2 (spec/42 R182), the encoder and
the opcode table's masks (spec/30). -/

namespace Sys2Proof

/-! ## The ten opcodes (R108) -/

/-- OP, the R-type operations (R111). -/
def opcOp : BitVec 7 := 0x33#7
/-- OP-IMM (R112). -/
def opcOpImm : BitVec 7 := 0x13#7
/-- LOAD (R113). -/
def opcLoad : BitVec 7 := 0x03#7
/-- STORE (R114). -/
def opcStore : BitVec 7 := 0x23#7
/-- BRANCH (R115). -/
def opcBranch : BitVec 7 := 0x63#7
/-- JALR (R116). -/
def opcJalr : BitVec 7 := 0x67#7
/-- JAL (R117). -/
def opcJal : BitVec 7 := 0x6F#7
/-- LUI (R118; spec/90 C4). -/
def opcLui : BitVec 7 := 0x37#7
/-- AUIPC (R118). -/
def opcAuipc : BitVec 7 := 0x17#7
/-- SYSTEM (R119). -/
def opcSystem : BitVec 7 := 0x73#7

/-! ## Stage-1: fields and immediates of a word (R152 to R158) -/

/-- `imm_i = sext_12(w[31:20])` (R154). -/
def immI (w : Word) : Imm :=
  (w.extractLsb' 20 12).signExtend 32

/-- `imm_s = sext_12(w[31:25] ++ w[11:7])` (R155). -/
def immS (w : Word) : Imm :=
  (w.extractLsb' 25 7 ++ w.extractLsb' 7 5).signExtend 32

/-- `imm_b = sext_13(w[31] ++ w[7] ++ w[30:25] ++ w[11:8] ++ 0)` (R156). -/
def immB (w : Word) : Imm :=
  (w.extractLsb' 31 1 ++ w.extractLsb' 7 1 ++ w.extractLsb' 25 6 ++ w.extractLsb' 8 4 ++ 0#1).signExtend 32

/-- `imm_u = w[31:12] ++ 0^12` (R157). -/
def immU (w : Word) : Imm :=
  w.extractLsb' 12 20 ++ 0#12

/-- `imm_j = sext_21(w[31] ++ w[19:12] ++ w[20] ++ w[30:21] ++ 0)` (R158, the corrected mask of spec/90 C5). -/
def immJ (w : Word) : Imm :=
  (w.extractLsb' 31 1 ++ w.extractLsb' 12 8 ++ w.extractLsb' 20 1 ++ w.extractLsb' 21 10 ++ 0#1).signExtend 32

/-- Stage-1 of one word: every field and all five immediates, whatever the word is (R150, R152, R159). -/
def extract (w : Word) : Lane where
  opcode := w.extractLsb' 0 7
  rd := w.extractLsb' 7 5
  funct3 := w.extractLsb' 12 3
  rs1 := w.extractLsb' 15 5
  rs2 := w.extractLsb' 20 5
  funct7 := w.extractLsb' 25 7
  immI := immI w
  immS := immS w
  immB := immB w
  immU := immU w
  immJ := immJ w

/-- The raw word of a lane, rebuilt from its six fields (R191). -/
def Lane.word (l : Lane) : Word :=
  l.funct7 ++ l.rs2 ++ l.rs1 ++ l.funct3 ++ l.rd ++ l.opcode

/-! The source's own shift-and-mask formulas (R153 to R158): the other form of the same values, stated equal elsewhere. -/

/-- "imm_i = w_s >> 20" (R154). -/
def sourceImmI (w : Word) : Imm :=
  w.sshiftRight 20

/-- "imm_s = ((w_s >> 20) & ~0x1f) | ((w_s >> 7) & 0x1f)" (R155). -/
def sourceImmS (w : Word) : Imm :=
  (w.sshiftRight 20 &&& ~~~0x1f#32) ||| (w.sshiftRight 7 &&& 0x1f#32)

/-- The source's reassembly of the B immediate (R156). -/
def sourceImmB (w : Word) : Imm :=
  (w.sshiftRight 19 &&& ~~~0xfff#32) ||| ((w.sshiftRight 7 &&& 0x1#32) <<< 11)
    ||| ((w.sshiftRight 25 &&& 0x3f#32) <<< 5) ||| ((w.sshiftRight 8 &&& 0xf#32) <<< 1)

/-- "imm_u = word & 0xFFFF_F000" (R157). -/
def sourceImmU (w : Word) : Imm :=
  w &&& 0xFFFFF000#32

/-- The source's J formula with the mask of its first term corrected to `~0xf_ffff` (R158). -/
def sourceImmJ (w : Word) : Imm :=
  (w.sshiftRight 11 &&& ~~~0xfffff#32) ||| (w &&& 0xff000#32)
    ||| (w.sshiftRight 9 &&& 0x800#32) ||| (w.sshiftRight 20 &&& 0x7fe#32)

/-! ## The decoder: the row of the opcode table that a lane matches (R108 to R119, R130) -/

/-- OP by (funct3, funct7); any other pair is rejected with `funct7` (R111). -/
def decodeOp (l : Lane) : Decoded :=
  if l.funct3 = 0#3 ∧ l.funct7 = 0x00#7 then .instr (.add l.rd l.rs1 l.rs2)
  else if l.funct3 = 0#3 ∧ l.funct7 = 0x20#7 then .instr (.sub l.rd l.rs1 l.rs2)
  else if l.funct3 = 1#3 ∧ l.funct7 = 0x00#7 then .instr (.sll l.rd l.rs1 l.rs2)
  else if l.funct3 = 2#3 ∧ l.funct7 = 0x00#7 then .instr (.slt l.rd l.rs1 l.rs2)
  else if l.funct3 = 3#3 ∧ l.funct7 = 0x00#7 then .instr (.sltu l.rd l.rs1 l.rs2)
  else if l.funct3 = 4#3 ∧ l.funct7 = 0x00#7 then .instr (.xor l.rd l.rs1 l.rs2)
  else if l.funct3 = 5#3 ∧ l.funct7 = 0x00#7 then .instr (.srl l.rd l.rs1 l.rs2)
  else if l.funct3 = 5#3 ∧ l.funct7 = 0x20#7 then .instr (.sra l.rd l.rs1 l.rs2)
  else if l.funct3 = 6#3 ∧ l.funct7 = 0x00#7 then .instr (.or l.rd l.rs1 l.rs2)
  else if l.funct3 = 7#3 ∧ l.funct7 = 0x00#7 then .instr (.and l.rd l.rs1 l.rs2)
  else .reject .funct7

/-- The 12-bit immediate of an I-type lane. -/
def Lane.imm12 (l : Lane) : BitVec 12 :=
  l.immI.extractLsb' 0 12

/-- The 12-bit immediate of an S-type lane. -/
def Lane.storeImm (l : Lane) : BitVec 12 :=
  l.immS.extractLsb' 0 12

/-- The 13-bit byte offset of a B-type lane. -/
def Lane.branchOffset (l : Lane) : BitVec 13 :=
  l.immB.extractLsb' 0 13

/-- The 20-bit upper immediate of a U-type lane. -/
def Lane.upperImm (l : Lane) : BitVec 20 :=
  l.immU.extractLsb' 12 20

/-- The 21-bit byte offset of a J-type lane. -/
def Lane.jumpOffset (l : Lane) : BitVec 21 :=
  l.immJ.extractLsb' 0 21

/-- The shamt-high field: `imm_i[11:5]` (R183). -/
def Lane.shamtHigh (l : Lane) : BitVec 7 :=
  l.immI.extractLsb' 5 7

/-- OP-IMM by funct3; the shifts also check shamt-high (R112, R183). -/
def decodeOpImm (l : Lane) : Decoded :=
  if l.funct3 = 0#3 then .instr (.addi l.rd l.rs1 l.imm12)
  else if l.funct3 = 1#3 then
    if l.shamtHigh = 0x00#7 then .instr (.slli l.rd l.rs1 l.rs2) else .reject .shamtHigh
  else if l.funct3 = 2#3 then .instr (.slti l.rd l.rs1 l.imm12)
  else if l.funct3 = 3#3 then .instr (.sltiu l.rd l.rs1 l.imm12)
  else if l.funct3 = 4#3 then .instr (.xori l.rd l.rs1 l.imm12)
  else if l.funct3 = 5#3 then
    if l.shamtHigh = 0x00#7 then .instr (.srli l.rd l.rs1 l.rs2)
    else if l.shamtHigh = 0x20#7 then .instr (.srai l.rd l.rs1 l.rs2)
    else .reject .shamtHigh
  else if l.funct3 = 6#3 then .instr (.ori l.rd l.rs1 l.imm12)
  else .instr (.andi l.rd l.rs1 l.imm12)

/-- LOAD by funct3 (R113). -/
def decodeLoad (l : Lane) : Decoded :=
  if l.funct3 = 0#3 then .instr (.lb l.rd l.rs1 l.imm12)
  else if l.funct3 = 1#3 then .instr (.lh l.rd l.rs1 l.imm12)
  else if l.funct3 = 2#3 then .instr (.lw l.rd l.rs1 l.imm12)
  else if l.funct3 = 4#3 then .instr (.lbu l.rd l.rs1 l.imm12)
  else if l.funct3 = 5#3 then .instr (.lhu l.rd l.rs1 l.imm12)
  else .reject .funct3

/-- STORE by funct3 (R114). -/
def decodeStore (l : Lane) : Decoded :=
  if l.funct3 = 0#3 then .instr (.sb l.rs1 l.rs2 l.storeImm)
  else if l.funct3 = 1#3 then .instr (.sh l.rs1 l.rs2 l.storeImm)
  else if l.funct3 = 2#3 then .instr (.sw l.rs1 l.rs2 l.storeImm)
  else .reject .funct3

/-- BRANCH by funct3 (R115). -/
def decodeBranch (l : Lane) : Decoded :=
  if l.funct3 = 0#3 then .instr (.beq l.rs1 l.rs2 l.branchOffset)
  else if l.funct3 = 1#3 then .instr (.bne l.rs1 l.rs2 l.branchOffset)
  else if l.funct3 = 4#3 then .instr (.blt l.rs1 l.rs2 l.branchOffset)
  else if l.funct3 = 5#3 then .instr (.bge l.rs1 l.rs2 l.branchOffset)
  else if l.funct3 = 6#3 then .instr (.bltu l.rs1 l.rs2 l.branchOffset)
  else if l.funct3 = 7#3 then .instr (.bgeu l.rs1 l.rs2 l.branchOffset)
  else .reject .funct3

/-- JALR: funct3 must be 0 (R116). -/
def decodeJalr (l : Lane) : Decoded :=
  if l.funct3 = 0#3 then .instr (.jalr l.rd l.rs1 l.imm12) else .reject .funct3

/-- JAL: bits 14:12 must be 0 (R117). -/
def decodeJal (l : Lane) : Decoded :=
  if l.funct3 = 0#3 then .instr (.jal l.rd l.jumpOffset) else .reject .funct3

/-- SYSTEM: funct3 0, then `imm_i` 0 or 1 (R119). -/
def decodeSystem (l : Lane) : Decoded :=
  if l.funct3 = 0#3 then
    if l.immI = 0#32 then .instr (.ecall l.rd l.rs1)
    else if l.immI = 1#32 then .instr (.ebreak l.rd l.rs1)
    else .reject .imm
  else .reject .funct3

/-- The instruction a lane holds: the tree of R182 "keyed on `opcode`", up to its last test. The x0-write test needs the
instruction known first (R184) and is part of the instruction's meaning (log entry 5). -/
def decodeLane (l : Lane) : Decoded :=
  if l.opcode = opcOp then decodeOp l
  else if l.opcode = opcOpImm then decodeOpImm l
  else if l.opcode = opcLoad then decodeLoad l
  else if l.opcode = opcStore then decodeStore l
  else if l.opcode = opcBranch then decodeBranch l
  else if l.opcode = opcJalr then decodeJalr l
  else if l.opcode = opcJal then decodeJal l
  else if l.opcode = opcLui then .instr (.lui l.rd l.upperImm)
  else if l.opcode = opcAuipc then .instr (.auipc l.rd l.upperImm)
  else if l.opcode = opcSystem then decodeSystem l
  else .reject .opcode

/-- The instruction a word holds: Stage-1, then the tree. -/
def decode (w : Word) : Decoded :=
  decodeLane (extract w)

/-- The 32-bit word of four bytes, the first the least significant (R65, R79). -/
def wordOfBytes (b0 b1 b2 b3 : Byte) : Word :=
  b3 ++ b2 ++ b1 ++ b0

/-- The four bytes of a word in the order DRAM stores them (R64, R65). -/
def bytesOfWord (w : Word) : List Byte :=
  [w.extractLsb' 0 8, w.extractLsb' 8 8, w.extractLsb' 16 8, w.extractLsb' 24 8]

/-- The instruction at the head of a list of bytes. -/
def decodeBytes : List Byte → Decoded
  | b0 :: b1 :: b2 :: b3 :: _ => decode (wordOfBytes b0 b1 b2 b3)
  | _ => .truncated

/-! ## Operation tags: class, code, mask and match -/

/-- The class of each operation (R182). -/
def OpTag.cls : OpTag → OpClass
  | .add | .sub | .xor | .or | .and | .sll | .srl | .sra | .slt | .sltu => .rtype
  | .addi | .xori | .ori | .andi | .slli | .srli | .srai | .slti | .sltiu => .ialu
  | .lb | .lh | .lw | .lbu | .lhu => .load
  | .sb | .sh | .sw => .store
  | .beq | .bne | .blt | .bge | .bltu | .bgeu => .branch
  | .jal => .jumpLink
  | .jalr => .jumpReg
  | .lui | .auipc => .upper
  | .ecall | .ebreak => .system

/-- The classes of the 28 writing operations (R185). -/
def OpClass.writesRd : OpClass → Bool
  | .rtype | .ialu | .load | .jumpReg | .jumpLink | .upper => true
  | .store | .branch | .system => false

/-- The numeric code of a tag: list order (R32, the spec's choice of TAG_CODE; log entry 22). -/
def tagCode : OpTag → Nat
  | .add => 0
  | .sub => 1
  | .xor => 2
  | .or => 3
  | .and => 4
  | .sll => 5
  | .srl => 6
  | .sra => 7
  | .slt => 8
  | .sltu => 9
  | .addi => 10
  | .xori => 11
  | .ori => 12
  | .andi => 13
  | .slli => 14
  | .srli => 15
  | .srai => 16
  | .slti => 17
  | .sltiu => 18
  | .lb => 19
  | .lh => 20
  | .lw => 21
  | .lbu => 22
  | .lhu => 23
  | .sb => 24
  | .sh => 25
  | .sw => 26
  | .beq => 27
  | .bne => 28
  | .blt => 29
  | .bge => 30
  | .bltu => 31
  | .bgeu => 32
  | .jal => 33
  | .jalr => 34
  | .lui => 35
  | .auipc => 36
  | .ecall => 37
  | .ebreak => 38

/-- The 39 tags in the order of R31. -/
def allTags : List OpTag :=
  [.add, .sub, .xor, .or, .and, .sll, .srl, .sra, .slt, .sltu, .addi, .xori, .ori, .andi, .slli, .srli, .srai, .slti, .sltiu]
    ++ [.lb, .lh, .lw, .lbu, .lhu, .sb, .sh, .sw, .beq, .bne, .blt, .bge, .bltu, .bgeu, .jal, .jalr, .lui, .auipc, .ecall, .ebreak]

/-- The `mask` column of spec/opcode_table.json: the bits an operation's row fixes (R130). -/
def OpTag.mask : OpTag → Word
  | .add | .sub | .xor | .or | .and | .sll | .srl | .sra | .slt | .sltu | .slli | .srli | .srai => 0xFE00707F#32
  | .addi | .xori | .ori | .andi | .slti | .sltiu => 0x0000707F#32
  | .lb | .lh | .lw | .lbu | .lhu | .sb | .sh | .sw => 0x0000707F#32
  | .beq | .bne | .blt | .bge | .bltu | .bgeu | .jal | .jalr => 0x0000707F#32
  | .lui | .auipc => 0x0000007F#32
  | .ecall | .ebreak => 0xFFF0707F#32

/-- The `match` column of spec/opcode_table.json (R130). -/
def OpTag.matchBits : OpTag → Word
  | .add => 0x00000033#32
  | .sub => 0x40000033#32
  | .xor => 0x00004033#32
  | .or => 0x00006033#32
  | .and => 0x00007033#32
  | .sll => 0x00001033#32
  | .srl => 0x00005033#32
  | .sra => 0x40005033#32
  | .slt => 0x00002033#32
  | .sltu => 0x00003033#32
  | .addi => 0x00000013#32
  | .xori => 0x00004013#32
  | .ori => 0x00006013#32
  | .andi => 0x00007013#32
  | .slli => 0x00001013#32
  | .srli => 0x00005013#32
  | .srai => 0x40005013#32
  | .slti => 0x00002013#32
  | .sltiu => 0x00003013#32
  | .lb => 0x00000003#32
  | .lh => 0x00001003#32
  | .lw => 0x00002003#32
  | .lbu => 0x00004003#32
  | .lhu => 0x00005003#32
  | .sb => 0x00000023#32
  | .sh => 0x00001023#32
  | .sw => 0x00002023#32
  | .beq => 0x00000063#32
  | .bne => 0x00001063#32
  | .blt => 0x00004063#32
  | .bge => 0x00005063#32
  | .bltu => 0x00006063#32
  | .bgeu => 0x00007063#32
  | .jal => 0x0000006F#32
  | .jalr => 0x00000067#32
  | .lui => 0x00000037#32
  | .auipc => 0x00000017#32
  | .ecall => 0x00000073#32
  | .ebreak => 0x00100073#32

/-- The word is of the operation's row: `w & mask = match` (R130). -/
def OpTag.matchesRow (op : OpTag) (w : Word) : Bool :=
  w &&& op.mask == op.matchBits

/-- The operation tag of an instruction. -/
def Instr.tag : Instr → OpTag
  | .add _ _ _ => .add
  | .sub _ _ _ => .sub
  | .xor _ _ _ => .xor
  | .or _ _ _ => .or
  | .and _ _ _ => .and
  | .sll _ _ _ => .sll
  | .srl _ _ _ => .srl
  | .sra _ _ _ => .sra
  | .slt _ _ _ => .slt
  | .sltu _ _ _ => .sltu
  | .addi _ _ _ => .addi
  | .xori _ _ _ => .xori
  | .ori _ _ _ => .ori
  | .andi _ _ _ => .andi
  | .slli _ _ _ => .slli
  | .srli _ _ _ => .srli
  | .srai _ _ _ => .srai
  | .slti _ _ _ => .slti
  | .sltiu _ _ _ => .sltiu
  | .lb _ _ _ => .lb
  | .lh _ _ _ => .lh
  | .lw _ _ _ => .lw
  | .lbu _ _ _ => .lbu
  | .lhu _ _ _ => .lhu
  | .sb _ _ _ => .sb
  | .sh _ _ _ => .sh
  | .sw _ _ _ => .sw
  | .beq _ _ _ => .beq
  | .bne _ _ _ => .bne
  | .blt _ _ _ => .blt
  | .bge _ _ _ => .bge
  | .bltu _ _ _ => .bltu
  | .bgeu _ _ _ => .bgeu
  | .jal _ _ => .jal
  | .jalr _ _ _ => .jalr
  | .lui _ _ => .lui
  | .auipc _ _ => .auipc
  | .ecall _ _ => .ecall
  | .ebreak _ _ => .ebreak

/-! ## The classification tree (R182), as the spec writes it: tag and class, the x0-write test last -/

/-- `RMAP` (R111). -/
def rMap (f3 : BitVec 3) (f7 : BitVec 7) : Option OpTag :=
  if f7 = 0x00#7 then
    if f3 = 0#3 then some .add
    else if f3 = 1#3 then some .sll
    else if f3 = 2#3 then some .slt
    else if f3 = 3#3 then some .sltu
    else if f3 = 4#3 then some .xor
    else if f3 = 5#3 then some .srl
    else if f3 = 6#3 then some .or
    else some .and
  else if f7 = 0x20#7 then
    if f3 = 0#3 then some .sub
    else if f3 = 5#3 then some .sra
    else none
  else none

/-- OP-IMM: the operations with no further key (R112). -/
def immMap (f3 : BitVec 3) : OpTag :=
  if f3 = 0#3 then .addi
  else if f3 = 2#3 then .slti
  else if f3 = 3#3 then .sltiu
  else if f3 = 4#3 then .xori
  else if f3 = 6#3 then .ori
  else .andi

/-- OP-IMM: the shifts, by funct3 1 or 5 and shamt-high (R112, R183). -/
def shiftMap (f3 : BitVec 3) (high : BitVec 7) : Option OpTag :=
  if f3 = 1#3 then
    if high = 0x00#7 then some .slli else none
  else if high = 0x00#7 then some .srli
  else if high = 0x20#7 then some .srai
  else none

/-- `LOADMAP` (R113). -/
def loadMap (f3 : BitVec 3) : Option OpTag :=
  if f3 = 0#3 then some .lb
  else if f3 = 1#3 then some .lh
  else if f3 = 2#3 then some .lw
  else if f3 = 4#3 then some .lbu
  else if f3 = 5#3 then some .lhu
  else none

/-- `STOREMAP` (R114). -/
def storeMap (f3 : BitVec 3) : Option OpTag :=
  if f3 = 0#3 then some .sb
  else if f3 = 1#3 then some .sh
  else if f3 = 2#3 then some .sw
  else none

/-- `BRANCHMAP` (R115). -/
def branchMap (f3 : BitVec 3) : Option OpTag :=
  if f3 = 0#3 then some .beq
  else if f3 = 1#3 then some .bne
  else if f3 = 4#3 then some .blt
  else if f3 = 5#3 then some .bge
  else if f3 = 6#3 then some .bltu
  else if f3 = 7#3 then some .bgeu
  else none

/-- The last test of the tree: a writing class with `rd = 0` is rejected (R186), else the operation is accepted. -/
def acceptUnlessX0 (l : Lane) (op : OpTag) (cls : OpClass) : Verdict :=
  if cls.writesRd = true ∧ l.rd = 0#5 then .reject .x0Write else .accept op cls

/-- An operation found in a map, or the reason that it is not there. -/
def verdictOf (l : Lane) (found : Option OpTag) (cls : OpClass) (missing : Reason) : Verdict :=
  match found with
  | some op => acceptUnlessX0 l op cls
  | none => .reject missing

/-- `classify` (R182). -/
def classify (l : Lane) : Verdict :=
  if l.opcode = opcOp then verdictOf l (rMap l.funct3 l.funct7) .rtype .funct7
  else if l.opcode = opcOpImm then
    if l.funct3 = 1#3 ∨ l.funct3 = 5#3 then verdictOf l (shiftMap l.funct3 l.shamtHigh) .ialu .shamtHigh
    else acceptUnlessX0 l (immMap l.funct3) .ialu
  else if l.opcode = opcLoad then verdictOf l (loadMap l.funct3) .load .funct3
  else if l.opcode = opcStore then verdictOf l (storeMap l.funct3) .store .funct3
  else if l.opcode = opcBranch then verdictOf l (branchMap l.funct3) .branch .funct3
  else if l.opcode = opcJalr then
    if l.funct3 = 0#3 then acceptUnlessX0 l .jalr .jumpReg else .reject .funct3
  else if l.opcode = opcJal then
    if l.funct3 = 0#3 then acceptUnlessX0 l .jal .jumpLink else .reject .funct3
  else if l.opcode = opcLui then acceptUnlessX0 l .lui .upper
  else if l.opcode = opcAuipc then acceptUnlessX0 l .auipc .upper
  else if l.opcode = opcSystem then
    if l.funct3 = 0#3 then
      if l.immI = 0#32 then acceptUnlessX0 l .ecall .system
      else if l.immI = 1#32 then acceptUnlessX0 l .ebreak .system
      else .reject .imm
    else .reject .funct3
  else .reject .opcode

/-! ## The encoder (R102 to R107) -/

/-- R-type (R102). -/
def encodeR (f7 : BitVec 7) (rs2 rs1 : Reg) (f3 : BitVec 3) (rd : Reg) (opc : BitVec 7) : Word :=
  f7 ++ rs2 ++ rs1 ++ f3 ++ rd ++ opc

/-- I-type (R103). -/
def encodeI (imm : BitVec 12) (rs1 : Reg) (f3 : BitVec 3) (rd : Reg) (opc : BitVec 7) : Word :=
  imm ++ rs1 ++ f3 ++ rd ++ opc

/-- S-type (R104). -/
def encodeS (imm : BitVec 12) (rs2 rs1 : Reg) (f3 : BitVec 3) (opc : BitVec 7) : Word :=
  imm.extractLsb' 5 7 ++ rs2 ++ rs1 ++ f3 ++ imm.extractLsb' 0 5 ++ opc

/-- B-type (R105). -/
def encodeB (off : BitVec 13) (rs2 rs1 : Reg) (f3 : BitVec 3) (opc : BitVec 7) : Word :=
  off.extractLsb' 12 1 ++ off.extractLsb' 5 6 ++ rs2 ++ rs1 ++ f3 ++ off.extractLsb' 1 4 ++ off.extractLsb' 11 1 ++ opc

/-- U-type (R106). -/
def encodeU (imm20 : BitVec 20) (rd : Reg) (opc : BitVec 7) : Word :=
  imm20 ++ rd ++ opc

/-- J-type (R107). -/
def encodeJ (off : BitVec 21) (rd : Reg) (opc : BitVec 7) : Word :=
  off.extractLsb' 20 1 ++ off.extractLsb' 1 10 ++ off.extractLsb' 11 1 ++ off.extractLsb' 12 8 ++ rd ++ opc

/-- The word of a well-formed instruction (R102 to R107, R111 to R119). -/
def encode : Instr → Word
  | .add rd rs1 rs2 => encodeR 0x00#7 rs2 rs1 0#3 rd opcOp
  | .sub rd rs1 rs2 => encodeR 0x20#7 rs2 rs1 0#3 rd opcOp
  | .sll rd rs1 rs2 => encodeR 0x00#7 rs2 rs1 1#3 rd opcOp
  | .slt rd rs1 rs2 => encodeR 0x00#7 rs2 rs1 2#3 rd opcOp
  | .sltu rd rs1 rs2 => encodeR 0x00#7 rs2 rs1 3#3 rd opcOp
  | .xor rd rs1 rs2 => encodeR 0x00#7 rs2 rs1 4#3 rd opcOp
  | .srl rd rs1 rs2 => encodeR 0x00#7 rs2 rs1 5#3 rd opcOp
  | .sra rd rs1 rs2 => encodeR 0x20#7 rs2 rs1 5#3 rd opcOp
  | .or rd rs1 rs2 => encodeR 0x00#7 rs2 rs1 6#3 rd opcOp
  | .and rd rs1 rs2 => encodeR 0x00#7 rs2 rs1 7#3 rd opcOp
  | .addi rd rs1 imm => encodeI imm rs1 0#3 rd opcOpImm
  | .slti rd rs1 imm => encodeI imm rs1 2#3 rd opcOpImm
  | .sltiu rd rs1 imm => encodeI imm rs1 3#3 rd opcOpImm
  | .xori rd rs1 imm => encodeI imm rs1 4#3 rd opcOpImm
  | .ori rd rs1 imm => encodeI imm rs1 6#3 rd opcOpImm
  | .andi rd rs1 imm => encodeI imm rs1 7#3 rd opcOpImm
  | .slli rd rs1 shamt => encodeR 0x00#7 shamt rs1 1#3 rd opcOpImm
  | .srli rd rs1 shamt => encodeR 0x00#7 shamt rs1 5#3 rd opcOpImm
  | .srai rd rs1 shamt => encodeR 0x20#7 shamt rs1 5#3 rd opcOpImm
  | .lb rd rs1 imm => encodeI imm rs1 0#3 rd opcLoad
  | .lh rd rs1 imm => encodeI imm rs1 1#3 rd opcLoad
  | .lw rd rs1 imm => encodeI imm rs1 2#3 rd opcLoad
  | .lbu rd rs1 imm => encodeI imm rs1 4#3 rd opcLoad
  | .lhu rd rs1 imm => encodeI imm rs1 5#3 rd opcLoad
  | .sb rs1 rs2 imm => encodeS imm rs2 rs1 0#3 opcStore
  | .sh rs1 rs2 imm => encodeS imm rs2 rs1 1#3 opcStore
  | .sw rs1 rs2 imm => encodeS imm rs2 rs1 2#3 opcStore
  | .beq rs1 rs2 off => encodeB off rs2 rs1 0#3 opcBranch
  | .bne rs1 rs2 off => encodeB off rs2 rs1 1#3 opcBranch
  | .blt rs1 rs2 off => encodeB off rs2 rs1 4#3 opcBranch
  | .bge rs1 rs2 off => encodeB off rs2 rs1 5#3 opcBranch
  | .bltu rs1 rs2 off => encodeB off rs2 rs1 6#3 opcBranch
  | .bgeu rs1 rs2 off => encodeB off rs2 rs1 7#3 opcBranch
  | .jal rd off => encodeJ off rd opcJal
  | .jalr rd rs1 imm => encodeI imm rs1 0#3 rd opcJalr
  | .lui rd imm20 => encodeU imm20 rd opcLui
  | .auipc rd imm20 => encodeU imm20 rd opcAuipc
  | .ecall rd rs1 => encodeI 0x000#12 rs1 0#3 rd opcSystem
  | .ebreak rd rs1 => encodeI 0x001#12 rs1 0#3 rd opcSystem

/-! ## The host's reading of one table word -/

/-- A number of `nbits` bits as a word, the bits above them zero. -/
def tableWord (nbits w : Nat) : Word :=
  BitVec.ofNat 32 (w % 2 ^ nbits)

/-- The instruction the decoder reads from the word's four bytes as DRAM holds them. -/
def decodeTableWord (nbits w : Nat) : Option Instr :=
  match decodeBytes (bytesOfWord (tableWord nbits w)) with
  | .instr i => some i
  | .reject _ => none
  | .truncated => none

end Sys2Proof
end

