-- ==== Sys2Proof/Machine/State.lean ====
section
/-! DEFINITION. The state of the block (spec/10_state.md R23) as plain data, the transactions and answers that cross its
interface (R40), and the state after reset (spec/70 R380 to R386). -/

namespace Sys2Proof.Machine

/-- Why the machine stops. -/
inductive Fault where
  /-- `CapacityExceeded`: raised by every step of a state whose fault mark is set, which an accepted lane that finds the
  columns full does (R203, R346: "The faulted state takes no further transaction"). Safe: the machine stops. -/
  | capacityExceeded
  deriving DecidableEq, Repr

/-- Why an instruction has no meaning. No step of this model answers with it: every instruction is modelled, and the
refusals of the spec are marks in the state (`RefusalReason`). -/
inductive Refusal where
  /-- Raised by an arm of `exec` whose instruction has no meaning yet. Safe: nothing runs. -/
  | notModelled (mnemonic : String)
  deriving DecidableEq, Repr

/-- The reasons of the table of R347. -/
inductive RefusalReason where
  | useAfterDestroy
  | alreadyLive
  | initOverflow
  | noStage1Batch
  | indexOutOfRange
  | unsupported
  deriving DecidableEq, Repr

/-- `BoundaryError = {OutOfBounds, MisalignedBase}` (R341). -/
inductive BoundaryError where
  | outOfBounds
  | misalignedBase
  deriving DecidableEq, Repr

/-- The typed error kinds of the scalar decode (R200). -/
inductive ErrorKind where
  | unknownOpcode
  | unknownFunct3
  | unknownFunct7
  | unknownShamtHigh
  | unknownImmediate
  | writesToX0
  deriving DecidableEq, Repr

/-- The widths of a DRAM access: "No other width exists" (R61). -/
inductive Width where
  | w8
  | w16
  | w32
  | w64
  | w128
  deriving DecidableEq, Repr

/-- A diagnostic record (R191). -/
structure DiagRecord where
  word : Word
  lane : Nat
  opcode : BitVec 7
  reason : Reason
  deriving DecidableEq, Repr

/-- The written bytes of DRAM by offset, in one canonical form: offsets strictly rising, one entry an offset. An offset
with no entry has not been written since the region was constructed and reads as its `dram_init` draw (log entry 9). -/
abbrev Memory := List Host.Cell

/-- The Stage-1 register bank (R24, R25). -/
structure Stage1 where
  valid : Bool
  base : Pc
  lanes : List Lane
  deriving DecidableEq, Repr

/-- The four Stage-2 columns (R26). -/
structure Columns where
  loc : List Pc
  op : List OpTag
  regs : List Packed
  imm : List Imm
  deriving DecidableEq, Repr

/-- The empty columns (R383). -/
def Columns.empty : Columns := ⟨[], [], [], []⟩

/-- The block: "The block's state is exactly the following" (R23), with its parameters (R11). -/
structure Block where
  /-- The parameters; no step writes them. -/
  params : Params
  /-- `DRAM_BASE`. -/
  dramBase : Addr
  /-- `DRAM_SIZE`, in bytes. -/
  dramSize : Nat
  /-- `mem`. -/
  mem : Memory
  /-- `dram_live`. -/
  dramLive : Bool
  /-- The model's own: which construction of the region this is, for the free value `Config.dramInit` (log entry 9). -/
  dramGen : Nat
  /-- The Stage-1 register bank. -/
  s1 : Stage1
  /-- The Stage-2 columns. -/
  cols : Columns
  /-- `DIAG`, oldest record first. -/
  diag : List DiagRecord
  /-- `s2_live`. -/
  s2Live : Bool
  /-- The fault mark. -/
  fault : Option Fault
  /-- The refusal mark. -/
  refused : Option RefusalReason
  deriving DecidableEq, Repr

/-- One of the four columns (R26). -/
inductive Column where
  | loc
  | op
  | regs
  | imm
  deriving DecidableEq, Repr

/-- One element of one column (R26). -/
inductive Element where
  | loc (v : Pc)
  | op (v : OpTag)
  | regs (v : Packed)
  | imm (v : Imm)
  deriving DecidableEq, Repr

/-- A transaction of R40. -/
inductive Request where
  /-- `dram_init(size, base)`; `none` is the default base (R41). -/
  | dramInit (size : Nat) (base : Option Addr)
  /-- `load_u8` to `load_u128` (R63). -/
  | dramLoad (w : Width) (addr : Addr)
  /-- `store_u8` to `store_u128`; the low `8W` bits of the value are stored (R64, log entry 16). -/
  | dramStore (w : Width) (addr : Addr) (v : Value)
  /-- `dram_destroy()` (R43). -/
  | dramDestroy
  /-- `s1_decode(base, words)` (R150). -/
  | s1Decode (base : Pc) (words : List Word)
  /-- `s2_new()` (R194). -/
  | s2New
  /-- `validate_and_pack()` (R180). -/
  | validateAndPack
  /-- `s2_len()` (R195). -/
  | s2Len
  /-- `s2_read(k)`, the four columns at once (R196). -/
  | s2Read (k : Nat)
  /-- One column read alone: "The four columns may also be read one at a time" (R196). R40 lists no request for it; its form is a
  DESIGN CHOICE (log entry 27). -/
  | s2ReadColumn (c : Column) (k : Nat)
  /-- `s2_clear()` (R197). -/
  | s2Clear
  /-- `s2_destroy()` (R198). -/
  | s2Destroy
  /-- `decode_one(word)`, when `HAS_SCALAR` (R200). -/
  | decodeOne (word : Word)
  /-- "any request that is none of the transactions" (R347). -/
  | unsupported
  deriving DecidableEq, Repr

/-- What a transaction answers the caller: one of the four outcomes of R341. -/
inductive Response where
  /-- Result with no value. -/
  | done
  /-- The value of a load (R63). -/
  | value (v : Value)
  /-- `L` (R195). -/
  | length (n : Nat)
  /-- One element of each column (R196). -/
  | entry (loc : Pc) (op : OpTag) (regs : Packed) (imm : Imm)
  /-- One element of one column (R196). -/
  | element (e : Element)
  /-- The scalar decode accepts (R200). -/
  | decoded (op : OpTag) (regs : Packed) (imm : Imm)
  /-- The scalar decode rejects: a result, not an error (R345). -/
  | rejected (k : ErrorKind)
  /-- A boundary error (R342, R343). -/
  | boundaryError (e : BoundaryError)
  /-- A refusal (R347). -/
  | refused (r : RefusalReason)
  /-- The capacity fault (R346). -/
  | faulted (f : Fault)
  deriving DecidableEq, Repr

/-- The machine: the block, where it stands inside a `validate_and_pack` call, and the caller's side of its interface. -/
structure State where
  /-- The block itself. -/
  block : Block
  /-- The model's own: a `validate_and_pack` call is under way (log entry 1). -/
  busy : Bool
  /-- The model's own: the next lane that call processes (log entry 1). -/
  lane : Nat
  /-- The caller's transactions not yet begun, oldest first (log entry 2). -/
  requests : List Request
  /-- The answers given so far, oldest first (log entry 3). -/
  responses : List Response
  deriving DecidableEq, Repr

/-- The parameters of the block after reset: N = 4 and HAS_SCALAR true are DESIGN CHOICE (log entry 7); OUT_CAP is
unbounded by default (R11). -/
def paramsAtReset : Params where
  batchN := 4
  outCap := none
  hasScalar := true

/-- The Stage-1 bank after reset: `S1.valid` false (R382); `S1.base` and the lane fields, which the spec leaves
unspecified, are 0 (DESIGN CHOICE, log entry 8). -/
def Stage1.reset : Stage1 where
  valid := false
  base := 0#32
  lanes := List.replicate paramsAtReset.batchN (extract 0#32)

/-- The block after `dram_init(256)` and `s2_new()` (R380 to R385); the size is a DESIGN CHOICE (log entry 6). -/
def Block.reset : Block where
  params := paramsAtReset
  dramBase := Config.defaultBase
  dramSize := 256
  mem := []
  dramLive := true
  dramGen := 0
  s1 := Stage1.reset
  cols := Columns.empty
  diag := []
  s2Live := true
  fault := none
  refused := none

/-- The machine right after reset: the constructed block, no call under way, nothing asked and nothing answered. -/
def State.reset : State where
  block := Block.reset
  busy := false
  lane := 0
  requests := []
  responses := []

end Sys2Proof.Machine
end

