-- ==== Sys2Proof/Machine/Flags.lean ====
section
/-! DEFINITION. The block has no status flags or condition codes (spec/10 R36), so no instruction computes one. Its flags are
the fault mark and the refusal mark (R23), set here and never cleared. -/

namespace Sys2Proof.Machine

/-- Set the fault mark, for good: no definition of the model clears it (R30, R346). -/
def Block.markFault (f : Fault) (b : Block) : Block :=
  { b with fault := some f }

/-- Set the refusal mark and change nothing else; a mark already set is kept "for good" (R347, log entry 11). -/
def Block.markRefused (r : RefusalReason) (b : Block) : Block :=
  match b.refused with
  | none => { b with refused := some r }
  | some _ => b

end Sys2Proof.Machine
end

