-- ==== Sys2Proof/Machine/Operands.lean ====
section
/-! DEFINITION. The operand forms: packed registers (spec/10 R33, R34), and the registers and the immediate Stage-2 records
for each class (spec/42 R187, R188). -/

namespace Sys2Proof.Machine

/-- `packRegs(rd, rs1, rs2) = 0 ++ rd ++ rs1 ++ rs2` (R33). -/
def packRegs (rd rs1 rs2 : Reg) : Packed :=
  0#1 ++ rd ++ rs1 ++ rs2

/-- `getRd(x) = x[14:10]` (R34). -/
def getRd (x : Packed) : Reg :=
  x.extractLsb' 10 5

/-- `getRs1(x) = x[9:5]` (R34). -/
def getRs1 (x : Packed) : Reg :=
  x.extractLsb' 5 5

/-- `getRs2(x) = x[4:0]` (R34). -/
def getRs2 (x : Packed) : Reg :=
  x.extractLsb' 0 5

/-- `pack(cls, l)`: the registers of a lane of each class, an absent field packed as zero (R188). -/
def packOf (cls : OpClass) (l : Lane) : Packed :=
  match cls with
  | .rtype => packRegs l.rd l.rs1 l.rs2
  | .ialu => packRegs l.rd l.rs1 0#5
  | .load => packRegs l.rd l.rs1 0#5
  | .store => packRegs 0#5 l.rs1 l.rs2
  | .branch => packRegs 0#5 l.rs1 l.rs2
  | .jumpLink => packRegs l.rd 0#5 0#5
  | .jumpReg => packRegs l.rd l.rs1 0#5
  | .upper => packRegs l.rd 0#5 0#5
  | .system => packRegs 0#5 0#5 0#5

/-- `immOf(cls, l)`: the one immediate a lane of each class records (R187). -/
def immOf (cls : OpClass) (l : Lane) : Imm :=
  match cls with
  | .rtype => 0#32
  | .ialu => l.immI
  | .load => l.immI
  | .jumpReg => l.immI
  | .system => l.immI
  | .store => l.immS
  | .branch => l.immB
  | .upper => l.immU
  | .jumpLink => l.immJ

/-! The recorded immediate of an instruction's own operand field (R154 to R158). -/

/-- A 12-bit immediate, sign-extended (R154, R155). -/
def immOf12 (imm : BitVec 12) : Imm :=
  imm.signExtend 32

/-- The whole `imm_i` of a shift-immediate, shamt-high included (R187, R256). -/
def immOfShift (high : BitVec 7) (shamt : BitVec 5) : Imm :=
  (high ++ shamt).signExtend 32

/-- A branch offset, sign-extended (R156). -/
def immOfBranch (off : BitVec 13) : Imm :=
  off.signExtend 32

/-- An upper immediate: `imm20 << 12` (R127, R157). -/
def immOfUpper (imm20 : BitVec 20) : Imm :=
  imm20 ++ 0#12

/-- A JAL offset, sign-extended (R158). -/
def immOfJump (off : BitVec 21) : Imm :=
  off.signExtend 32

/-- The bytes of a DRAM access (R61). -/
def Width.bytes : Width → Nat
  | .w8 => 1
  | .w16 => 2
  | .w32 => 4
  | .w64 => 8
  | .w128 => 16

/-- `kind(r)`: the typed error kind of a rejection reason (R200). -/
def kindOf : Reason → ErrorKind
  | .opcode => .unknownOpcode
  | .funct3 => .unknownFunct3
  | .funct7 => .unknownFunct7
  | .shamtHigh => .unknownShamtHigh
  | .imm => .unknownImmediate
  | .x0Write => .writesToX0

end Sys2Proof.Machine
end

