-- ==== Sys2Proof/Machine/Ops.lean ====
section
/-! DEFINITION. The named operations over DRAM, the columns and the diagnostic stream, and the ways a transaction answers the
caller (spec/20, spec/42, spec/60). -/

namespace Sys2Proof.Machine

/-! ## The written bytes of DRAM -/

/-- The byte last written at an offset, if any. -/
def Memory.read : Memory → Nat → Option Byte
  | [], _ => none
  | (a, v) :: rest, k => if a = k then some v else Memory.read rest k

/-- Write one byte, keeping the offsets strictly rising. -/
def Memory.write : Memory → Nat → Byte → Memory
  | [], k, v => [(k, v)]
  | (a, b) :: rest, k, v =>
    if k < a then (k, v) :: (a, b) :: rest
    else if k = a then (k, v) :: rest
    else (a, b) :: Memory.write rest k v

/-- Every offset of the list is above `k`'s entry and the offsets rise strictly. -/
def Memory.risesFrom : Nat → Memory → Bool
  | _, [] => true
  | k, (a, _) :: rest => k ≤ a && Memory.risesFrom (a + 1) rest

/-- The canonical form: offsets strictly rising (log entry 9). -/
def Memory.wf (m : Memory) : Bool :=
  Memory.risesFrom 0 m

/-- DRAM byte `mem[off]`: the byte last written there, else its `dram_init` draw (R75, R381). -/
def Block.byteAt (b : Block) (off : Nat) : Byte :=
  match b.mem.read off with
  | some v => v
  | none => Config.dramInit b.dramGen off

/-- `InBounds(a, W)`, over exact integers, the lower bound first (R62). -/
def Block.inBounds (b : Block) (a : Nat) (w : Width) : Bool :=
  if b.dramBase.toNat ≤ a then decide (a - b.dramBase.toNat + w.bytes ≤ b.dramSize) else false

/-- `Σ zext(mem[off + k]) · 2^(8k)` over `k < n` (R63). -/
def Block.sumBytes (b : Block) (off : Nat) : Nat → Nat
  | 0 => 0
  | n + 1 => b.sumBytes off n + (b.byteAt (off + n)).toNat * 2 ^ (8 * n)

/-- The value of a load at an absolute address, zero-extended; `none` is `OutOfBounds` (R63). -/
def Block.load (b : Block) (w : Width) (a : Nat) : Option Value :=
  if b.inBounds a w then some (BitVec.ofNat 128 (b.sumBytes (a - b.dramBase.toNat) w.bytes)) else none

/-- `mem[off + k] ← v[8k+7 : 8k]` for `k < n` (R64). -/
def Memory.writeBytes (m : Memory) (off : Nat) (v : Value) : Nat → Memory
  | 0 => m
  | n + 1 => (m.writeBytes off v n).write (off + n) (v.extractLsb' (8 * n) 8)

/-- The block after a store at an absolute address; `none` is `OutOfBounds`, and no byte is changed (R64). -/
def Block.store (b : Block) (w : Width) (a : Nat) (v : Value) : Option Block :=
  if b.inBounds a w then
    some { b with mem := b.mem.writeBytes (a - b.dramBase.toNat) v w.bytes }
  else none

/-- The value `dram_load(W, a)` gives the caller; `none` when it is refused because the region is dead, and when it is
`OutOfBounds` (R63, in that order: R348). -/
def Block.dramLoad (b : Block) (w : Width) (a : Nat) : Option Value :=
  if b.dramLive then b.load w a else none

/-- Word `i` of a batch at `base`: `dram_load(4, zext(base) + 4·i)`, the caller's fetch convention (R79). -/
def Block.fetchWord (b : Block) (base : Pc) (i : Nat) : Option Word :=
  match b.dramLoad .w32 (base.toNat + 4 * i) with
  | some v => some (v.setWidth 32)
  | none => none

/-- The first `n` words of a batch; if any load gives no value, out of bounds or in a dead region, "the caller has no batch"
(R79; R387: the fetch needs a live region). -/
def Block.fetchWords (b : Block) (base : Pc) : Nat → Option (List Word)
  | 0 => some []
  | n + 1 =>
    match b.fetchWords base n, b.fetchWord base n with
    | some ws, some w => some (ws ++ [w])
    | _, _ => none

/-- The batch of `N` words at `base` (R79). -/
def Block.fetchBatch (b : Block) (base : Pc) : Option (List Word) :=
  b.fetchWords base b.params.batchN

/-! ## The columns and the diagnostic stream -/

/-- `L`, the length of the columns (R26, R195). -/
def Columns.len (c : Columns) : Nat :=
  c.loc.length

/-- One append to each column (R190). -/
def Columns.append (c : Columns) (loc : Pc) (op : OpTag) (regs : Packed) (imm : Imm) : Columns where
  loc := c.loc ++ [loc]
  op := c.op ++ [op]
  regs := c.regs ++ [regs]
  imm := c.imm ++ [imm]

/-- The columns are full: `L` has reached `OUT_CAP` (R203, log entry 17). -/
def Block.full (b : Block) : Bool :=
  match b.params.outCap with
  | none => false
  | some cap => decide (cap ≤ b.cols.len)

/-- `(S1.base + 4·i) mod 2^PC_W` (R189). -/
def locOf (base : Pc) (i : Nat) : Pc :=
  base + BitVec.ofNat 32 (4 * i)

/-- `diag(i, r)` of a lane (R191). -/
def diagOf (l : Lane) (i : Nat) (r : Reason) : DiagRecord where
  word := l.word
  lane := i
  opcode := l.opcode
  reason := r

/-- `emit(rec)`: the stream only grows (R28). -/
def Block.emit (b : Block) (d : DiagRecord) : Block :=
  { b with diag := b.diag ++ [d] }

/-- Append one accepted entry at a location (R190). -/
def Block.appendEntry (b : Block) (loc : Pc) (op : OpTag) (regs : Packed) (imm : Imm) : Block :=
  { b with cols := b.cols.append loc op regs imm }

/-- `lane(i)` of the bank; past the batch, where no call ever looks, the record of the zero word (log entry 24). -/
def Stage1.laneAt (s : Stage1) (i : Nat) : Lane :=
  match s.lanes[i]? with
  | some l => l
  | none => extract 0#32

/-! ## What happens to the lane a call stands at (R181) -/

/-- The lane is rejected: one diagnostic record, no column changes (R190, R191, R344). -/
def State.dropLane (s : State) (r : Reason) : State :=
  { s with block := s.block.emit (diagOf (s.block.s1.laneAt s.lane) s.lane r), lane := s.lane + 1 }

/-- The lane is accepted: one element for each column, or the capacity fault, which stops the call (R181, R189, R190, R203). -/
def State.acceptLane (s : State) (op : OpTag) (regs : Packed) (imm : Imm) : State :=
  if s.block.full then { s with block := s.block.markFault .capacityExceeded }
  else
    { s with
      block := s.block.appendEntry (locOf s.block.s1.base s.lane) op regs imm
      lane := s.lane + 1 }

/-- A writing operation: dropped with `x0_write` when `rd` is 0, accepted otherwise (R186). -/
def State.acceptWriting (s : State) (rd : Reg) (op : OpTag) (regs : Packed) (imm : Imm) : State :=
  if rd = 0#5 then s.dropLane .x0Write else s.acceptLane op regs imm

/-! ## Answers to the caller (R341) -/

/-- A caller's transaction joins the queue. -/
def State.submit (s : State) (q : Request) : State :=
  { s with requests := s.requests ++ [q] }

/-- The transaction ends with a response. -/
def State.respond (s : State) (r : Response) : State :=
  { s with responses := s.responses ++ [r] }

/-- `raise E()`: the one "trap" of the block. It saves nothing, enters no handler and returns to the caller (R342, R343,
R349); the caller's next transaction is the return from it (R350). -/
def State.raise (s : State) (e : BoundaryError) : State :=
  s.respond (.boundaryError e)

/-- `refuse(reason)`: the mark is set and nothing else changes (R347). -/
def State.refuse (s : State) (r : RefusalReason) : State :=
  { s with block := s.block.markRefused r }.respond (.refused r)

/-- After a lane: a capacity fault ends the call (R203), so does the last lane (R181); otherwise the next lane is due. -/
def State.afterLane (s : State) : State :=
  match s.block.fault with
  | some f => { s with busy := false, lane := 0 }.respond (.faulted f)
  | none => if s.lane < s.block.params.batchN then s else { s with busy := false, lane := 0 }.respond .done

end Sys2Proof.Machine
end

