-- ==== Sys2Proof/Machine/Branches.lean ====
section
/-! DEFINITION. The conditional branches (spec/47, opcode 1100011); the target is formed by the execution stage (R301): what Stage-2 records for each. -/

namespace Sys2Proof.Machine

/-- `beq` (R295). -/
def execBeq (rs1 rs2 : Reg) (off : BitVec 13) (s : State) : Host.Outcome State Fault Refusal :=
  .next (s.acceptLane .beq (packRegs 0#5 rs1 rs2) (immOfBranch off))

/-- `bne` (R296). -/
def execBne (rs1 rs2 : Reg) (off : BitVec 13) (s : State) : Host.Outcome State Fault Refusal :=
  .next (s.acceptLane .bne (packRegs 0#5 rs1 rs2) (immOfBranch off))

/-- `blt` (R297). -/
def execBlt (rs1 rs2 : Reg) (off : BitVec 13) (s : State) : Host.Outcome State Fault Refusal :=
  .next (s.acceptLane .blt (packRegs 0#5 rs1 rs2) (immOfBranch off))

/-- `bge` (R298). -/
def execBge (rs1 rs2 : Reg) (off : BitVec 13) (s : State) : Host.Outcome State Fault Refusal :=
  .next (s.acceptLane .bge (packRegs 0#5 rs1 rs2) (immOfBranch off))

/-- `bltu` (R299). -/
def execBltu (rs1 rs2 : Reg) (off : BitVec 13) (s : State) : Host.Outcome State Fault Refusal :=
  .next (s.acceptLane .bltu (packRegs 0#5 rs1 rs2) (immOfBranch off))

/-- `bgeu` (R300). -/
def execBgeu (rs1 rs2 : Reg) (off : BitVec 13) (s : State) : Host.Outcome State Fault Refusal :=
  .next (s.acceptLane .bgeu (packRegs 0#5 rs1 rs2) (immOfBranch off))

end Sys2Proof.Machine
end

