-- ==== Sys2Proof/Machine/ItypeAlu.lean ====
section
/-! DEFINITION. The I-type arithmetic and shift-immediate operations (spec/44, opcode 0010011): what Stage-2 records for each. -/

namespace Sys2Proof.Machine

/-- `addi` (R250). -/
def execAddi (rd rs1 : Reg) (imm : BitVec 12) (s : State) : Host.Outcome State Fault Refusal :=
  .next (s.acceptWriting rd .addi (packRegs rd rs1 0#5) (immOf12 imm))

/-- `slti` (R252). -/
def execSlti (rd rs1 : Reg) (imm : BitVec 12) (s : State) : Host.Outcome State Fault Refusal :=
  .next (s.acceptWriting rd .slti (packRegs rd rs1 0#5) (immOf12 imm))

/-- `sltiu` (R253). -/
def execSltiu (rd rs1 : Reg) (imm : BitVec 12) (s : State) : Host.Outcome State Fault Refusal :=
  .next (s.acceptWriting rd .sltiu (packRegs rd rs1 0#5) (immOf12 imm))

/-- `xori` (R254). -/
def execXori (rd rs1 : Reg) (imm : BitVec 12) (s : State) : Host.Outcome State Fault Refusal :=
  .next (s.acceptWriting rd .xori (packRegs rd rs1 0#5) (immOf12 imm))

/-- `ori` (R257). -/
def execOri (rd rs1 : Reg) (imm : BitVec 12) (s : State) : Host.Outcome State Fault Refusal :=
  .next (s.acceptWriting rd .ori (packRegs rd rs1 0#5) (immOf12 imm))

/-- `andi` (R258). -/
def execAndi (rd rs1 : Reg) (imm : BitVec 12) (s : State) : Host.Outcome State Fault Refusal :=
  .next (s.acceptWriting rd .andi (packRegs rd rs1 0#5) (immOf12 imm))

/-- `slli` (R251). -/
def execSlli (rd rs1 : Reg) (shamt : BitVec 5) (s : State) : Host.Outcome State Fault Refusal :=
  .next (s.acceptWriting rd .slli (packRegs rd rs1 0#5) (immOfShift 0x00#7 shamt))

/-- `srli` (R255). -/
def execSrli (rd rs1 : Reg) (shamt : BitVec 5) (s : State) : Host.Outcome State Fault Refusal :=
  .next (s.acceptWriting rd .srli (packRegs rd rs1 0#5) (immOfShift 0x00#7 shamt))

/-- `srai` (R256): the recorded immediate is `0x400 + shamt`. -/
def execSrai (rd rs1 : Reg) (shamt : BitVec 5) (s : State) : Host.Outcome State Fault Refusal :=
  .next (s.acceptWriting rd .srai (packRegs rd rs1 0#5) (immOfShift 0x20#7 shamt))

end Sys2Proof.Machine
end

