-- ==== Sys2Proof/Machine/JumpsUpper.lean ====
section
/-! DEFINITION. The jumps and upper-immediate operations (spec/48): what Stage-2 records for each. -/

namespace Sys2Proof.Machine

/-- `jalr` (R310): any offset, odd ones included. -/
def execJalr (rd rs1 : Reg) (imm : BitVec 12) (s : State) : Host.Outcome State Fault Refusal :=
  .next (s.acceptWriting rd .jalr (packRegs rd rs1 0#5) (immOf12 imm))

/-- `jal` (R311); bits 14:12 of the word were found 0 by the decoder (R117). -/
def execJal (rd : Reg) (off : BitVec 21) (s : State) : Host.Outcome State Fault Refusal :=
  .next (s.acceptWriting rd .jal (packRegs rd 0#5 0#5) (immOfJump off))

/-- `lui` (R312). -/
def execLui (rd : Reg) (imm20 : BitVec 20) (s : State) : Host.Outcome State Fault Refusal :=
  .next (s.acceptWriting rd .lui (packRegs rd 0#5 0#5) (immOfUpper imm20))

/-- `auipc` (R313). -/
def execAuipc (rd : Reg) (imm20 : BitVec 20) (s : State) : Host.Outcome State Fault Refusal :=
  .next (s.acceptWriting rd .auipc (packRegs rd 0#5 0#5) (immOfUpper imm20))

end Sys2Proof.Machine
end

