-- ==== Sys2Proof/Machine/Loads.lean ====
section
/-! DEFINITION. The load operations (spec/45, opcode 0000011); the decoder reads no memory: what Stage-2 records for each. -/

namespace Sys2Proof.Machine

/-- `lb` (R270). -/
def execLb (rd rs1 : Reg) (imm : BitVec 12) (s : State) : Host.Outcome State Fault Refusal :=
  .next (s.acceptWriting rd .lb (packRegs rd rs1 0#5) (immOf12 imm))

/-- `lh` (R271). -/
def execLh (rd rs1 : Reg) (imm : BitVec 12) (s : State) : Host.Outcome State Fault Refusal :=
  .next (s.acceptWriting rd .lh (packRegs rd rs1 0#5) (immOf12 imm))

/-- `lw` (R272). -/
def execLw (rd rs1 : Reg) (imm : BitVec 12) (s : State) : Host.Outcome State Fault Refusal :=
  .next (s.acceptWriting rd .lw (packRegs rd rs1 0#5) (immOf12 imm))

/-- `lbu` (R273). -/
def execLbu (rd rs1 : Reg) (imm : BitVec 12) (s : State) : Host.Outcome State Fault Refusal :=
  .next (s.acceptWriting rd .lbu (packRegs rd rs1 0#5) (immOf12 imm))

/-- `lhu` (R274). -/
def execLhu (rd rs1 : Reg) (imm : BitVec 12) (s : State) : Host.Outcome State Fault Refusal :=
  .next (s.acceptWriting rd .lhu (packRegs rd rs1 0#5) (immOf12 imm))

end Sys2Proof.Machine
end

