-- ==== Sys2Proof/Machine/RType.lean ====
section
/-! DEFINITION. The R-type operations (spec/43, opcode 0110011): what Stage-2 records for each. -/

namespace Sys2Proof.Machine

/-- `add` (R230). -/
def execAdd (rd rs1 rs2 : Reg) (s : State) : Host.Outcome State Fault Refusal :=
  .next (s.acceptWriting rd .add (packRegs rd rs1 rs2) 0#32)

/-- `sub` (R231). -/
def execSub (rd rs1 rs2 : Reg) (s : State) : Host.Outcome State Fault Refusal :=
  .next (s.acceptWriting rd .sub (packRegs rd rs1 rs2) 0#32)

/-- `sll` (R232). -/
def execSll (rd rs1 rs2 : Reg) (s : State) : Host.Outcome State Fault Refusal :=
  .next (s.acceptWriting rd .sll (packRegs rd rs1 rs2) 0#32)

/-- `slt` (R233). -/
def execSlt (rd rs1 rs2 : Reg) (s : State) : Host.Outcome State Fault Refusal :=
  .next (s.acceptWriting rd .slt (packRegs rd rs1 rs2) 0#32)

/-- `sltu` (R234). -/
def execSltu (rd rs1 rs2 : Reg) (s : State) : Host.Outcome State Fault Refusal :=
  .next (s.acceptWriting rd .sltu (packRegs rd rs1 rs2) 0#32)

/-- `xor` (R235). -/
def execXor (rd rs1 rs2 : Reg) (s : State) : Host.Outcome State Fault Refusal :=
  .next (s.acceptWriting rd .xor (packRegs rd rs1 rs2) 0#32)

/-- `srl` (R236). -/
def execSrl (rd rs1 rs2 : Reg) (s : State) : Host.Outcome State Fault Refusal :=
  .next (s.acceptWriting rd .srl (packRegs rd rs1 rs2) 0#32)

/-- `sra` (R237). -/
def execSra (rd rs1 rs2 : Reg) (s : State) : Host.Outcome State Fault Refusal :=
  .next (s.acceptWriting rd .sra (packRegs rd rs1 rs2) 0#32)

/-- `or` (R238). -/
def execOr (rd rs1 rs2 : Reg) (s : State) : Host.Outcome State Fault Refusal :=
  .next (s.acceptWriting rd .or (packRegs rd rs1 rs2) 0#32)

/-- `and` (R239). -/
def execAnd (rd rs1 rs2 : Reg) (s : State) : Host.Outcome State Fault Refusal :=
  .next (s.acceptWriting rd .and (packRegs rd rs1 rs2) 0#32)

end Sys2Proof.Machine
end

