-- ==== Sys2Proof/Machine/Stores.lean ====
section
/-! DEFINITION. The store operations (spec/46, opcode 0100011); the decoder writes no memory: what Stage-2 records for each. -/

namespace Sys2Proof.Machine

/-- `sb` (R285). -/
def execSb (rs1 rs2 : Reg) (imm : BitVec 12) (s : State) : Host.Outcome State Fault Refusal :=
  .next (s.acceptLane .sb (packRegs 0#5 rs1 rs2) (immOf12 imm))

/-- `sh` (R286). -/
def execSh (rs1 rs2 : Reg) (imm : BitVec 12) (s : State) : Host.Outcome State Fault Refusal :=
  .next (s.acceptLane .sh (packRegs 0#5 rs1 rs2) (immOf12 imm))

/-- `sw` (R287). -/
def execSw (rs1 rs2 : Reg) (imm : BitVec 12) (s : State) : Host.Outcome State Fault Refusal :=
  .next (s.acceptLane .sw (packRegs 0#5 rs1 rs2) (immOf12 imm))

end Sys2Proof.Machine
end

