-- ==== Sys2Proof/Machine/System.lean ====
section
/-! DEFINITION. The ECALL and EBREAK (spec/49): "The block only decodes ECALL and EBREAK. It raises no trap" (R329): what Stage-2 records for each. -/

namespace Sys2Proof.Machine

/-- `ecall` (R325): the `rd` and `rs1` fields are not checked and not packed; `imm = imm_i = 0`. -/
def execEcall (_rd _rs1 : Reg) (s : State) : Host.Outcome State Fault Refusal :=
  .next (s.acceptLane .ecall (packRegs 0#5 0#5 0#5) 0#32)

/-- `ebreak` (R326): the `rd` and `rs1` fields are not checked and not packed; `imm = imm_i = 1`. -/
def execEbreak (_rd _rs1 : Reg) (s : State) : Host.Outcome State Fault Refusal :=
  .next (s.acceptLane .ebreak (packRegs 0#5 0#5 0#5) 1#32)

end Sys2Proof.Machine
end

