-- ==== Sys2Proof/Machine/Transactions.lean ====
section
/-! DEFINITION. The transactions of spec/10 R40, one definition each, the lane that a `validate_and_pack` call processes at a
step, and that call as one operation (spec/42 R181). Checks run in the order of spec/60 R348. -/

namespace Sys2Proof.Machine

/-! ## DRAM transactions -/

/-- `dram_init(size, base)`: every byte of the new region is a fresh draw (R41, R381, R347). -/
def State.dramInit (s : State) (size : Nat) (base : Option Addr) : State :=
  if s.block.dramLive then s.refuse .alreadyLive
  else if Config.addrSpace < (base.getD Config.defaultBase).toNat + size then s.refuse .initOverflow
  else
    { s with
      block :=
        { s.block with
          dramBase := base.getD Config.defaultBase
          dramSize := size
          mem := []
          dramLive := true
          dramGen := s.block.dramGen + 1 } }.respond .done

/-- `dram_load(W, a)` (R63). -/
def State.dramLoad (s : State) (w : Width) (a : Addr) : State :=
  if s.block.dramLive then
    match s.block.load w a.toNat with
    | some v => s.respond (.value v)
    | none => s.raise .outOfBounds
  else s.refuse .useAfterDestroy

/-- `dram_store(W, a, v)` (R64). -/
def State.dramStore (s : State) (w : Width) (a : Addr) (v : Value) : State :=
  if s.block.dramLive then
    match s.block.store w a.toNat v with
    | some b => { s with block := b }.respond .done
    | none => s.raise .outOfBounds
  else s.refuse .useAfterDestroy

/-- `dram_destroy()`: sets `dram_live ← false` (R43, log entry 26). -/
def State.dramDestroy (s : State) : State :=
  if s.block.dramLive then { s with block := { s.block with dramLive := false } }.respond .done
  else s.refuse .useAfterDestroy

/-! ## Stage-1 -/

/-- `s1_decode(base, words)` (R150, R151, R161). A list of a length other than `N` is no batch (R150, log entry 13). -/
def State.s1Decode (s : State) (base : Pc) (words : List Word) : State :=
  if words.length ≠ s.block.params.batchN then s.refuse .unsupported
  else if base.toNat % 4 ≠ 0 then
    { s with block := { s.block with s1 := { s.block.s1 with valid := false } } }.raise .misalignedBase
  else
    { s with block := { s.block with s1 := ⟨true, base, words.map extract⟩ } }.respond .done

/-! ## Stage-2 -/

/-- `s2_new()` (R194). After `s2_destroy` it constructs the object anew, with empty columns: the model's reading of R198 beside
R347 (DEDUCED, log entry 28). -/
def State.s2New (s : State) : State :=
  if s.block.s2Live then s.refuse .alreadyLive
  else { s with block := { s.block with cols := Columns.empty, s2Live := true } }.respond .done

/-- `validate_and_pack()` begins: its first lane is due at the next step (R180, R181, log entry 1). -/
def State.validateAndPack (s : State) : State :=
  if s.block.s2Live then
    if s.block.s1.valid then { s with busy := true, lane := 0 }.afterLane else s.refuse .noStage1Batch
  else s.refuse .useAfterDestroy

/-- `s2_len()` (R195). -/
def State.s2Len (s : State) : State :=
  if s.block.s2Live then s.respond (.length s.block.cols.len) else s.refuse .useAfterDestroy

/-- The `k`-th element of each column (R196). -/
def Columns.entryAt (c : Columns) (k : Nat) : Option Response :=
  match c.loc[k]?, c.op[k]?, c.regs[k]?, c.imm[k]? with
  | some l, some o, some r, some i => some (.entry l o r i)
  | _, _, _, _ => none

/-- `s2_read(k)` (R196). -/
def State.s2Read (s : State) (k : Nat) : State :=
  if s.block.s2Live then
    match s.block.cols.entryAt k with
    | some r => s.respond r
    | none => s.refuse .indexOutOfRange
  else s.refuse .useAfterDestroy

/-- The `k`-th element of one column (R196). -/
def Columns.elementAt (c : Columns) (which : Column) (k : Nat) : Option Element :=
  match which with
  | .loc => c.loc[k]?.map .loc
  | .op => c.op[k]?.map .op
  | .regs => c.regs[k]?.map .regs
  | .imm => c.imm[k]?.map .imm

/-- One column read alone (R196); refused as `s2_read(k)` is (log entry 27). -/
def State.s2ReadColumn (s : State) (which : Column) (k : Nat) : State :=
  if s.block.s2Live then
    match s.block.cols.elementAt which k with
    | some e => s.respond (.element e)
    | none => s.refuse .indexOutOfRange
  else s.refuse .useAfterDestroy

/-- `s2_clear()` (R197). -/
def State.s2Clear (s : State) : State :=
  if s.block.s2Live then { s with block := { s.block with cols := Columns.empty } }.respond .done
  else s.refuse .useAfterDestroy

/-- `s2_destroy()` (R198, log entry 26). -/
def State.s2Destroy (s : State) : State :=
  if s.block.s2Live then { s with block := { s.block with s2Live := false } }.respond .done
  else s.refuse .useAfterDestroy

/-! ## The single-instruction variant -/

/-- What `decode_one(word)` returns (R200). -/
def decodeOneResult (w : Word) : Response :=
  match classify (extract w) with
  | .accept op cls => .decoded op (packOf cls (extract w)) (immOf cls (extract w))
  | .reject r => .rejected (kindOf r)

/-- `decode_one(word)`, which exists when `HAS_SCALAR` is true (R48, R200, log entry 14). -/
def State.decodeOne (s : State) (w : Word) : State :=
  if s.block.params.hasScalar then s.respond (decodeOneResult w) else s.refuse .unsupported

/-- A transaction begins and, but for `validate_and_pack`, completes (R10, R40). -/
def State.transact (s : State) : Request → State
  | .dramInit size base => s.dramInit size base
  | .dramLoad w a => s.dramLoad w a
  | .dramStore w a v => s.dramStore w a v
  | .dramDestroy => s.dramDestroy
  | .s1Decode base words => s.s1Decode base words
  | .s2New => s.s2New
  | .validateAndPack => s.validateAndPack
  | .s2Len => s.s2Len
  | .s2Read k => s.s2Read k
  | .s2ReadColumn which k => s.s2ReadColumn which k
  | .s2Clear => s.s2Clear
  | .s2Destroy => s.s2Destroy
  | .decodeOne w => s.decodeOne w
  | .unsupported => s.refuse .unsupported

/-! ## One lane of a `validate_and_pack` call -/

/-- The lane's instruction runs, and the call goes on or ends. -/
def continueCall : Host.Outcome State Fault Refusal → Host.Outcome State Fault Refusal
  | .next t => .next t.afterLane
  | .fault f => .fault f
  | .refused r => .refused r

/-- The lane a call stands at: its instruction's meaning, or the drop of a lane that holds none (R181). Past the bank the
call ends (log entry 24). -/
def State.laneStep (s : State) : Host.Outcome State Fault Refusal :=
  match s.block.s1.lanes[s.lane]? with
  | none => .next ({ s with busy := false, lane := 0 }.respond .done)
  | some l =>
    match decodeLane l with
    | .instr i => continueCall (exec i s)
    | .reject r => .next (s.dropLane r).afterLane
    | .truncated => .next ({ s with busy := false, lane := 0 }.respond .done)

/-! ## The whole call as one operation: the pseudocode of R181, with no step in between -/

/-- Lanes `i, i+1, …` of R181, in order; the capacity fault stops the call. -/
def Block.packLanes (b : Block) : List Lane → Nat → Block
  | [], _ => b
  | l :: rest, i =>
    match classify l with
    | .reject r => (b.emit (diagOf l i r)).packLanes rest (i + 1)
    | .accept op cls =>
      if b.full then b.markFault .capacityExceeded
      else (b.appendEntry (locOf b.s1.base i) op (packOf cls l) (immOf cls l)).packLanes rest (i + 1)

/-- `validate_and_pack()` on a live Stage-2 object and a valid bank (R181). -/
def Block.packAll (b : Block) : Block :=
  b.packLanes b.s1.lanes 0

end Sys2Proof.Machine
end

