-- ==== Sys2Proof/Machine/Step.lean ====
section
/-! DEFINITION. One step of the machine, and where it finds its next instruction. -/

namespace Sys2Proof.Machine

/-- One step. A faulted state takes no further transaction (R346). A call under way processes its next lane (R181).
Otherwise the caller's next transaction begins (R10, R49); with none asked for, nothing happens (log entry 2). -/
def step (s : State) : Host.Outcome State Fault Refusal :=
  match s.block.fault with
  | some f => .fault f
  | none =>
    if s.busy then s.laneStep
    else
      match s.requests with
      | [] => .next s
      | q :: rest => .next ({ s with requests := rest }.transact q)

/-- The word as lane 0 of a decoded batch whose `validate_and_pack` call has begun: where a step finds its next
instruction (log entry 23). -/
def State.withFetchWord (s : State) (nbits w : Nat) : State :=
  { s with
    block :=
      { s.block with
        s1 := { s.block.s1 with valid := true, lanes := extract (tableWord nbits w) :: s.block.s1.lanes.drop 1 }
        s2Live := true }
    busy := true
    lane := 0 }

end Sys2Proof.Machine
end

