-- ==== Sys2Proof/Safety.lean ====
section
/-! DEFINITION. What a good state is, in the terms the claims use: the output invariants of spec/42 R199 and spec/10 R26, R27,
R33, and the agreements between fields that the model adds. -/

namespace Sys2Proof.Machine

/-- The range of the immediate that each class records (R187, R154 to R158; for JAL also R117). -/
def immInRange (op : OpTag) (imm : Imm) : Prop :=
  match op.cls with
  | .rtype => imm = 0#32
  | .ialu | .load | .jumpReg | .store => -2048 ≤ imm.toInt ∧ imm.toInt ≤ 2047
  | .branch => -4096 ≤ imm.toInt ∧ imm.toInt ≤ 4094 ∧ imm.getLsbD 0 = false
  | .jumpLink =>
    -1048576 ≤ imm.toInt ∧ imm.toInt ≤ 1048574 ∧ imm.getLsbD 0 = false ∧ imm.extractLsb' 12 3 = 0#3
  | .upper => imm.extractLsb' 0 12 = 0#12
  | .system => imm = if op = .ecall then 0#32 else 1#32

/-- "Unused register slots for an instruction type store zero" (R33, R188). -/
def unusedSlotsZero (op : OpTag) (regs : Packed) : Prop :=
  match op.cls with
  | .rtype => True
  | .ialu | .load | .jumpReg => getRs2 regs = 0#5
  | .store | .branch => getRd regs = 0#5
  | .jumpLink | .upper => getRs1 regs = 0#5 ∧ getRs2 regs = 0#5
  | .system => regs = 0#16

/-- One element of the columns is an entry Stage-2 can record (R199). -/
structure EntryOk (loc : Pc) (op : OpTag) (regs : Packed) (imm : Imm) : Prop where
  locAligned : loc.toNat % 4 = 0
  topBitClear : regs.getLsbD 15 = false
  slots : unusedSlotsZero op regs
  noX0Write : op.cls.writesRd = true → getRd regs ≠ 0#5
  imm : immInRange op imm

/-- "Four parallel columns, always equal in length" (R26, R195). -/
structure Columns.Lockstep (c : Columns) : Prop where
  op : c.op.length = c.loc.length
  regs : c.regs.length = c.loc.length
  imm : c.imm.length = c.loc.length

/-- Every element of the columns is an entry Stage-2 can record. -/
def Columns.EntriesOk (c : Columns) : Prop :=
  ∀ e ∈ c.loc.zip (c.op.zip (c.regs.zip c.imm)), EntryOk e.1 e.2.1 e.2.2.1 e.2.2.2

/-- The lane is the Stage-1 record of its own word. -/
def laneExtracted (l : Lane) : Prop :=
  l = extract l.word

/-- The memory list is canonical and names bytes of the region only (log entry 9). -/
structure Block.DramOk (b : Block) : Prop where
  canonical : b.mem.wf = true
  inside : ∀ c ∈ b.mem, c.1 < b.dramSize
  region : b.dramBase.toNat + b.dramSize ≤ Config.addrSpace

/-- The Stage-1 bank holds one extracted lane for each of the `N` lanes, at an aligned base while it is valid (R24, R25). -/
structure Block.BankOk (b : Block) : Prop where
  full : b.s1.lanes.length = b.params.batchN
  extracted : ∀ l ∈ b.s1.lanes, laneExtracted l
  aligned : b.s1.valid = true → b.s1.base.toNat % 4 = 0

/-- The columns are in lockstep, hold entries only, and hold at most `OUT_CAP` of them (R199, R203). -/
structure Block.ColumnsOk (b : Block) : Prop where
  lockstep : b.cols.Lockstep
  entries : b.cols.EntriesOk
  capacity : ∀ cap, b.params.outCap = some cap → b.cols.len ≤ cap

/-- The invariant of the machine. -/
structure State.Inv (s : State) : Prop where
  dram : s.block.DramOk
  bank : s.block.BankOk
  columns : s.block.ColumnsOk
  /-- A call under way has a live Stage-2 object, a valid bank and a lane to process (R180, R181). -/
  call : s.busy = true → s.block.s2Live = true ∧ s.block.s1.valid = true ∧ s.lane < s.block.params.batchN

/-- "never a correct final state" (R346, R347): a state may be final only with no fault, no refusal and no call under way. -/
def State.correctFinal (s : State) : Bool :=
  s.block.fault.isNone && s.block.refused.isNone && !s.busy

/-- The state whose call stands at a lane holding the word: a call is under way, nothing has faulted, and the lane is the
Stage-1 record of the word. -/
structure State.AtWord (s : State) (w : Word) : Prop where
  noFault : s.block.fault = none
  busy : s.busy = true
  lane : s.block.s1.lanes[s.lane]? = some (extract w)

/-- The machine is between transactions and the caller's next one is `q`. -/
structure State.Asks (s : State) (q : Request) (rest : List Request) : Prop where
  noFault : s.block.fault = none
  idle : s.busy = false
  queue : s.requests = q :: rest

/-! ## The next states the claims name, written out field by field -/

/-- The block became `b`, the transaction at the head of the queue is over, and the caller was answered `r`. -/
def State.answered (s : State) (b : Block) (rest : List Request) (r : Response) : State :=
  { s with block := b, requests := rest, responses := s.responses ++ [r] }

/-- The transaction was refused: the mark is set, an earlier mark is kept, and nothing else of the block changed
(R347; that an earlier mark is kept is the model's reading, log entry 11). -/
def State.refusedFor (s : State) (rest : List Request) (r : RefusalReason) : State :=
  s.answered { s.block with refused := some (s.block.refused.getD r) } rest (.refused r)

/-- Lane `s.lane` was accepted: each column has one more element, `loc` at `S1.base + 4·lane` (R181, R189, R190). -/
def State.recorded (s : State) (op : OpTag) (regs : Packed) (imm : Imm) : State :=
  { s with
    block :=
      { s.block with
        cols :=
          { loc := s.block.cols.loc ++ [s.block.s1.base + BitVec.ofNat 32 (4 * s.lane)]
            op := s.block.cols.op ++ [op]
            regs := s.block.cols.regs ++ [regs]
            imm := s.block.cols.imm ++ [imm] } }
    lane := s.lane + 1 }

/-- Lane `s.lane`, whose word is `w`, was dropped with one diagnostic record (R191, R344). -/
def State.dropped (s : State) (w : Word) (r : Reason) : State :=
  { s with
    block :=
      { s.block with
        diag := s.block.diag ++ [{ word := w, lane := s.lane, opcode := w.extractLsb' 0 7, reason := r }] }
    lane := s.lane + 1 }

/-- The columns have room for one more element (R203). -/
def Block.hasRoom (b : Block) : Prop :=
  ∀ cap, b.params.outCap = some cap → b.cols.loc.length < cap

/-- How many lanes `classify` accepts. -/
def acceptedCount (lanes : List Lane) : Nat :=
  lanes.countP fun l => match classify l with
    | .accept _ _ => true
    | .reject _ => false

/-- The byte offset is one of the `W` bytes of an access at an absolute address. -/
def Block.covers (b : Block) (a : Addr) (w : Width) (off : Nat) : Bool :=
  decide (a.toNat - b.dramBase.toNat ≤ off) && decide (off < a.toNat - b.dramBase.toNat + w.bytes)

/-- The transaction is one of the DRAM's (R41 to R43). -/
def Request.isDram : Request → Bool
  | .dramInit _ _ => true
  | .dramLoad _ _ => true
  | .dramStore _ _ _ => true
  | .dramDestroy => true
  | .s1Decode _ _ => false
  | .s2New => false
  | .validateAndPack => false
  | .s2Len => false
  | .s2Read _ => false
  | .s2ReadColumn _ _ => false
  | .s2Clear => false
  | .s2Destroy => false
  | .decodeOne _ => false
  | .unsupported => false

end Sys2Proof.Machine
end

