-- ==== Sys2Proof/Certificates/Slice0/Obligations.lean ====
section
/-! DEFINITION. The statements for the provers. A next state is written out field by field (Sys2Proof/Safety.lean: `answered`,
`refusedFor`, `recorded`, `dropped`), so each equation is also the frame: every field it does not name is unchanged. -/

open Sys2Proof Sys2Proof.Machine

/-! ## Encoding -/

/-- Every bit of every operand of every instruction survives encoding (spec/30 R102 to R119). -/
def Obligations.DecodeOfEncodeIsTheInstruction : Prop :=
  ∀ i : Instr, i.wf = true → decode (encode i) = .instr i

/-- The other direction: a word that decodes is the encoding of what it decodes to (spec/30 R102 to R120). -/
def Obligations.EncodeOfDecodeIsTheWord : Prop :=
  ∀ (w : Word) (i : Instr), decode w = .instr i → i.wf = true ∧ encode i = w

/-- Words of the spec's own examples, one or two of each family (spec/95 section 3), in the byte order of DRAM. -/
def Obligations.SampleWordsDecode : Prop :=
  decodeBytes [0xB3, 0x00, 0x31, 0x00] = .instr (.add 1 2 3) ∧
  decodeBytes [0xB3, 0x50, 0x31, 0x40] = .instr (.sra 1 2 3) ∧
  decodeBytes [0x93, 0x00, 0xF1, 0xFF] = .instr (.addi 1 2 0xFFF) ∧
  decodeBytes [0x93, 0x50, 0x31, 0x40] = .instr (.srai 1 2 3) ∧
  decodeBytes [0x83, 0x52, 0x03, 0x80] = .instr (.lhu 5 6 0x800) ∧
  decodeBytes [0x23, 0x24, 0x31, 0x00] = .instr (.sw 2 3 8) ∧
  decodeBytes [0xE3, 0x9C, 0x00, 0xFE] = .instr (.bne 1 0 0x1FF8) ∧
  decodeBytes [0xEF, 0x00, 0x10, 0x00] = .instr (.jal 1 2048) ∧
  decodeBytes [0xE7, 0x80, 0x02, 0x00] = .instr (.jalr 1 5 0) ∧
  decodeBytes [0xB7, 0x50, 0x34, 0x12] = .instr (.lui 1 0x12345) ∧
  decodeBytes [0xF3, 0x02, 0x10, 0x00] = .instr (.ebreak 5 0)

/-- Stage-2 accepts a word as an operation exactly when the word is of the operation's row of spec/opcode_table.json and,
for a writing operation, bits 11:7 are not zero (spec/30 R121, R130). -/
def Obligations.ClassifyAcceptsExactlyTheTable : Prop :=
  ∀ (w : Word) (op : OpTag) (cls : OpClass),
    classify (extract w) = .accept op cls ↔
      op.matchesRow w = true ∧ cls = op.cls ∧ (op.cls.writesRd = true → w.extractLsb' 7 5 ≠ 0#5)

/-- The decoder and the tree of R182 are one classification: they differ only in the x0-write test, the last of the tree. -/
def Obligations.DecoderAgreesWithClassify : Prop :=
  ∀ l : Lane,
    (∀ i, decodeLane l = .instr i →
      classify l = if i.tag.cls.writesRd = true ∧ l.rd = 0#5 then .reject .x0Write else .accept i.tag i.tag.cls) ∧
    (∀ r, decodeLane l = .reject r → classify l = .reject r)

/-- The reason of a rejected word is the first test of R182 that fails, in the order of R184, which is the spec's own decision
(spec/92 D10, D11), with the funct3 numbers of spec/92 D26 (log entry 19). -/
def Obligations.RejectionReasonIsTheFirstFailedTest : Prop :=
  ∀ w : Word,
    let opc := w.extractLsb' 0 7
    let f3 := w.extractLsb' 12 3
    let f7 := w.extractLsb' 25 7
    let known := opc ∈ [0x33#7, 0x13#7, 0x03#7, 0x23#7, 0x63#7, 0x67#7, 0x6F#7, 0x37#7, 0x17#7, 0x73#7]
    let badFunct3 :=
      (opc = 0x03#7 ∧ f3 ∉ [0#3, 1#3, 2#3, 4#3, 5#3]) ∨ (opc = 0x23#7 ∧ f3 ∉ [0#3, 1#3, 2#3]) ∨
      (opc = 0x63#7 ∧ f3 ∉ [0#3, 1#3, 4#3, 5#3, 6#3, 7#3]) ∨ ((opc = 0x67#7 ∨ opc = 0x6F#7 ∨ opc = 0x73#7) ∧ f3 ≠ 0#3)
    let badFunct7 :=
      opc = 0x33#7 ∧ (f3, f7) ∉ [(0#3, 0x00#7), (0#3, 0x20#7), (1#3, 0x00#7), (2#3, 0x00#7), (3#3, 0x00#7), (4#3, 0x00#7),
        (5#3, 0x00#7), (5#3, 0x20#7), (6#3, 0x00#7), (7#3, 0x00#7)]
    let badShamt :=
      opc = 0x13#7 ∧ ((f3 = 1#3 ∧ f7 ≠ 0x00#7) ∨ (f3 = 5#3 ∧ f7 ≠ 0x00#7 ∧ f7 ≠ 0x20#7))
    let badImm := opc = 0x73#7 ∧ f3 = 0#3 ∧ immI w ≠ 0#32 ∧ immI w ≠ 1#32
    let writes := opc ∉ [0x23#7, 0x63#7, 0x73#7]
    (classify (extract w) = .reject .opcode ↔ ¬known) ∧
    (classify (extract w) = .reject .funct3 ↔ badFunct3) ∧
    (classify (extract w) = .reject .funct7 ↔ badFunct7) ∧
    (classify (extract w) = .reject .shamtHigh ↔ badShamt) ∧
    (classify (extract w) = .reject .imm ↔ badImm) ∧
    (classify (extract w) = .reject .x0Write ↔
      known ∧ ¬badFunct3 ∧ ¬badFunct7 ∧ ¬badShamt ∧ ¬badImm ∧ writes ∧ w.extractLsb' 7 5 = 0#5)

/-! ## Stage-1 -/

/-- R152: each field is the source's shift and mask of the word, which is the bit slice, and the example word's fields. -/
def Obligations.FieldsAreTheSourceFormulas : Prop :=
  (∀ w : Word,
    (extract w).opcode = w.extractLsb' 0 7 ∧ (extract w).rd = w.extractLsb' 7 5 ∧ (extract w).funct3 = w.extractLsb' 12 3 ∧
    (extract w).rs1 = w.extractLsb' 15 5 ∧ (extract w).rs2 = w.extractLsb' 20 5 ∧ (extract w).funct7 = w.extractLsb' 25 7 ∧
    (extract w).opcode.setWidth 32 = w &&& 0x7f#32 ∧
    (extract w).rd.setWidth 32 = (w >>> 7) &&& 0x1f#32 ∧
    (extract w).funct3.setWidth 32 = (w >>> 12) &&& 0x07#32 ∧
    (extract w).rs1.setWidth 32 = (w >>> 15) &&& 0x1f#32 ∧
    (extract w).rs2.setWidth 32 = (w >>> 20) &&& 0x1f#32 ∧
    (extract w).funct7.setWidth 32 = (w >>> 25) &&& 0x7f#32) ∧
  (extract 0x003100B3#32).opcode = 0x33#7 ∧ (extract 0x003100B3#32).rd = 1#5 ∧ (extract 0x003100B3#32).funct3 = 0#3 ∧
  (extract 0x003100B3#32).rs1 = 2#5 ∧ (extract 0x003100B3#32).rs2 = 3#5 ∧ (extract 0x003100B3#32).funct7 = 0x00#7

/-- R154: both forms of `imm_i`, its range, its corner cases and its example. -/
def Obligations.ImmediateIIsSignExtended : Prop :=
  (∀ w : Word,
    (extract w).immI = w.sshiftRight 20 ∧ (extract w).immI = (w.extractLsb' 20 12).signExtend 32 ∧
    -2048 ≤ (extract w).immI.toInt ∧ (extract w).immI.toInt ≤ 2047 ∧
    (w.extractLsb' 20 12 = 0x800#12 → (extract w).immI.toInt = -2048) ∧
    (w.extractLsb' 20 12 = 0x7FF#12 → (extract w).immI.toInt = 2047)) ∧
  (extract 0xFFF10093#32).immI.toInt = -1

/-- R155: both forms of `imm_s`, its range and its examples. -/
def Obligations.ImmediateSIsSignExtended : Prop :=
  (∀ w : Word,
    (extract w).immS = (w.sshiftRight 20 &&& ~~~0x1f#32) ||| (w.sshiftRight 7 &&& 0x1f#32) ∧
    (extract w).immS = (w.extractLsb' 25 7 ++ w.extractLsb' 7 5).signExtend 32 ∧
    -2048 ≤ (extract w).immS.toInt ∧ (extract w).immS.toInt ≤ 2047) ∧
  (extract 0x00312423#32).immS.toInt = 8 ∧ (extract 0xFE112E23#32).immS.toInt = -4

/-- R156: both forms of `imm_b`, its range, its clear bit 0, its corner cases and its example. -/
def Obligations.ImmediateBIsSignExtended : Prop :=
  (∀ w : Word,
    (extract w).immB = (w.sshiftRight 19 &&& ~~~0xfff#32) ||| ((w.sshiftRight 7 &&& 0x1#32) <<< 11)
      ||| ((w.sshiftRight 25 &&& 0x3f#32) <<< 5) ||| ((w.sshiftRight 8 &&& 0xf#32) <<< 1) ∧
    (extract w).immB =
      (w.extractLsb' 31 1 ++ w.extractLsb' 7 1 ++ w.extractLsb' 25 6 ++ w.extractLsb' 8 4 ++ 0#1).signExtend 32 ∧
    (extract w).immB.getLsbD 0 = false ∧ -4096 ≤ (extract w).immB.toInt ∧ (extract w).immB.toInt ≤ 4094) ∧
  (extract 0x80000063#32).immB.toInt = -4096 ∧ (extract 0x7E000FE3#32).immB.toInt = 4094 ∧
  (extract 0x00208863#32).immB.toInt = 16

/-- R157: both forms of `imm_u`, its range, its corner case and its example. -/
def Obligations.ImmediateUIsTheUpperBits : Prop :=
  (∀ w : Word,
    (extract w).immU = w &&& 0xFFFFF000#32 ∧ (extract w).immU = w.extractLsb' 12 20 ++ 0#12 ∧
    (extract w).immU.toInt % 4096 = 0 ∧ -2 ^ 31 ≤ (extract w).immU.toInt ∧ (extract w).immU.toInt ≤ 2 ^ 31 - 4096) ∧
  (extract 0x800002B7#32).immU.toInt = -2147483648 ∧ (extract 0x123450B7#32).immU = 0x12345000#32

/-- R158: both forms of `imm_j` with the mask that spec/90 C5 corrects, its range, its corner cases and its example. -/
def Obligations.ImmediateJIsSignExtended : Prop :=
  (∀ w : Word,
    (extract w).immJ = (w.sshiftRight 11 &&& ~~~0xfffff#32) ||| (w &&& 0xff000#32)
      ||| (w.sshiftRight 9 &&& 0x800#32) ||| (w.sshiftRight 20 &&& 0x7fe#32) ∧
    (extract w).immJ =
      (w.extractLsb' 31 1 ++ w.extractLsb' 12 8 ++ w.extractLsb' 20 1 ++ w.extractLsb' 21 10 ++ 0#1).signExtend 32 ∧
    (extract w).immJ.toInt % 2 = 0 ∧ -1048576 ≤ (extract w).immJ.toInt ∧ (extract w).immJ.toInt ≤ 1048574) ∧
  (extract 0x800000EF#32).immJ.toInt = -1048576 ∧ (extract 0xFFFFF0EF#32).immJ.toInt = -2 ∧
  (extract 0x7FFFF0EF#32).immJ.toInt = 1048574 ∧ (extract 0x001000EF#32).immJ.toInt = 2048

/-- R163, derived by the spec itself: the relations between the fields and the immediates of every word. -/
def Obligations.ImmediatesShareTheFieldsBits : Prop :=
  ∀ w : Word,
    (extract w).immI.extractLsb' 5 7 = (extract w).funct7 ∧ (extract w).funct7 = w.extractLsb' 25 7 ∧
    (extract w).immI.extractLsb' 0 5 = (extract w).rs2 ∧ (extract w).rs2 = w.extractLsb' 20 5 ∧
    (extract w).immS.extractLsb' 0 5 = (extract w).rd ∧
    (extract w).immB.getLsbD 0 = false ∧ (extract w).immJ.getLsbD 0 = false ∧
    (extract w).immU.extractLsb' 0 12 = 0#12 ∧
    ∀ imm ∈ [(extract w).immI, (extract w).immS, (extract w).immB, (extract w).immJ],
      imm.toInt < 0 ↔ w.getLsbD 31 = true

/-- R150, R151, R161: what `s1_decode` leaves. An aligned base fills the whole bank; a misaligned one produces no batch (that
`S1.valid` is then false is the spec's decision, spec/92 D7); neither changes anything else. -/
def Obligations.Stage1DecodeFillsTheBankOrNone : Prop :=
  ∀ (s : State) (base : Pc) (words : List Word) (rest : List Request),
    s.Asks (.s1Decode base words) rest → words.length = s.block.params.batchN →
      (base.toNat % 4 = 0 →
        step s =
          .next (s.answered { s.block with s1 := { valid := true, base := base, lanes := words.map extract } } rest .done)) ∧
      (base.toNat % 4 ≠ 0 →
        step s = .next
          (s.answered { s.block with s1 := { s.block.s1 with valid := false } } rest (.boundaryError .misalignedBase)))

/-! ## DRAM -/

/-- R62: the bounds rule in both of the source's forms, over exact integers as spec/92 D3 decides. -/
def Obligations.BoundsRuleInBothForms : Prop :=
  ∀ (b : Block) (a : Nat) (w : Width),
    (b.inBounds a w = true ↔ b.dramBase.toNat ≤ a ∧ (a - b.dramBase.toNat) + w.bytes ≤ b.dramSize) ∧
    (b.inBounds a w = true ↔ b.dramBase.toNat ≤ a ∧ a + w.bytes ≤ b.dramBase.toNat + b.dramSize)

/-- R63: a load answers the little-endian sum of its bytes, unsigned, and changes no state of the block; a dead region
refuses (the mark as in log entry 11) and an out-of-bounds access is returned as the error. -/
def Obligations.LoadAnswersTheLittleEndianSum : Prop :=
  ∀ (s : State) (w : Width) (a : Addr) (rest : List Request), s.Asks (.dramLoad w a) rest →
    (s.block.dramLive = false → step s = .next (s.refusedFor rest .useAfterDestroy)) ∧
    (s.block.dramLive = true → s.block.inBounds a.toNat w = false →
      step s = .next (s.answered s.block rest (.boundaryError .outOfBounds))) ∧
    (s.block.dramLive = true → s.block.inBounds a.toNat w = true →
      ∃ v : Value,
        v.toNat = (Finset.range w.bytes).sum
          (fun k => (s.block.byteAt (a.toNat - s.block.dramBase.toNat + k)).toNat * 2 ^ (8 * k)) ∧
        v.toNat < 2 ^ (8 * w.bytes) ∧ step s = .next (s.answered s.block rest (.value v)))

/-- R64, R65: a store writes byte `k` of the value at offset `k` of the access and no other byte; a failed store writes none. In a
dead region it is refused (the mark as in log entry 11). -/
def Obligations.StoreWritesExactlyItsBytes : Prop :=
  ∀ (s : State) (w : Width) (a : Addr) (v : Value) (rest : List Request), s.Asks (.dramStore w a v) rest →
    (s.block.dramLive = false → step s = .next (s.refusedFor rest .useAfterDestroy)) ∧
    (s.block.dramLive = true → s.block.inBounds a.toNat w = false →
      step s = .next (s.answered s.block rest (.boundaryError .outOfBounds))) ∧
    (s.block.dramLive = true → s.block.inBounds a.toNat w = true →
      ∃ m : Memory,
        step s = .next (s.answered { s.block with mem := m } rest .done) ∧
        (∀ k < w.bytes,
          ({ s.block with mem := m } : Block).byteAt (a.toNat - s.block.dramBase.toNat + k) = v.extractLsb' (8 * k) 8) ∧
        (∀ off, s.block.covers a w off = false → ({ s.block with mem := m } : Block).byteAt off = s.block.byteAt off))

/-- R68, derived by the spec itself: in bounds of a live region, an access of any width succeeds at any alignment (here at each
remainder `r` of the address). -/
def Obligations.AccessesHaveNoAlignmentRule : Prop :=
  ∀ (s : State) (w : Width) (a : Addr) (v : Value) (rest : List Request) (r : Nat),
    a.toNat % w.bytes = r → s.block.dramLive = true → s.block.inBounds a.toNat w = true →
      (s.Asks (.dramLoad w a) rest → ∃ x, step s = .next (s.answered s.block rest (.value x))) ∧
      (s.Asks (.dramStore w a v) rest → ∃ m, step s = .next (s.answered { s.block with mem := m } rest .done))

/-- The Memory round-trip property of spec/95 section 1.2: a load after a store at the same place answers the stored value. -/
def Obligations.LoadAfterStoreAnswersTheValue : Prop :=
  ∀ (s : State) (w : Width) (a : Addr) (v : Value) (rest : List Request),
    s.Asks (.dramStore w a v) (.dramLoad w a :: rest) → s.block.dramLive = true → s.block.inBounds a.toNat w = true →
      ∃ t u, step s = .next t ∧ step t = .next u ∧
        u.responses = s.responses ++ [.done, .value (BitVec.ofNat 128 (v.toNat % 2 ^ (8 * w.bytes)))]

/-- R75 (spec/92 D29): after any run of in-bounds stores on a new region, a byte is what the latest store that covers it wrote
there, or its `dram_init` draw (log entry 9). -/
def Obligations.LatestStoreToAByteWins : Prop :=
  ∀ (b : Block) (stores : List (Width × Addr × Value)) (off : Nat),
    b.mem = [] → (∀ x ∈ stores, b.inBounds x.2.1.toNat x.1 = true) →
      (stores.foldl (fun c x => (c.store x.1 x.2.1.toNat x.2.2).getD c) b).byteAt off =
        match stores.reverse.find? (fun x => b.covers x.2.1 x.1 off) with
        | some x => x.2.2.extractLsb' (8 * (off - (x.2.1.toNat - b.dramBase.toNat))) 8
        | none => Config.dramInit b.dramGen off

/-- R79, R387: a fetched batch has `N` words, word `i` the little-endian value of the four bytes at `base + 4·i`. There is no
batch exactly when one of the `N` loads gives no value: the region is dead, or the address is out of bounds. Each word is what
the transaction `dram_load(4, base + 4·i)` answers, and where there is none that transaction answers the refusal or the error (at
every address that exists; the mark as in log entry 11). The convention is the spec's decision (spec/92 D16; log entry 25). -/
def Obligations.FetchFollowsTheConvention : Prop :=
  ∀ (b : Block) (base : Pc),
    (∀ ws, b.fetchBatch base = some ws →
      ws.length = b.params.batchN ∧
      ∀ i < b.params.batchN, b.dramLive = true ∧ ws[i]? = b.fetchWord base i ∧ ws[i]? = some (wordOfBytes
        (b.byteAt (base.toNat + 4 * i - b.dramBase.toNat)) (b.byteAt (base.toNat + 4 * i - b.dramBase.toNat + 1))
        (b.byteAt (base.toNat + 4 * i - b.dramBase.toNat + 2)) (b.byteAt (base.toNat + 4 * i - b.dramBase.toNat + 3)))) ∧
    (b.fetchBatch base = none ↔
      ∃ i < b.params.batchN, b.dramLive = false ∨ b.inBounds (base.toNat + 4 * i) .w32 = false) ∧
    (∀ (s : State) (rest : List Request) (i : Nat), s.block = b → base.toNat + 4 * i < 2 ^ 64 →
      s.Asks (.dramLoad .w32 (BitVec.ofNat 64 (base.toNat + 4 * i))) rest →
        (∀ w, b.fetchWord base i = some w → step s = .next (s.answered b rest (.value (w.setWidth 128)))) ∧
        (b.fetchWord base i = none → b.dramLive = true →
          step s = .next (s.answered b rest (.boundaryError .outOfBounds))) ∧
        (b.fetchWord base i = none → b.dramLive = false → step s = .next (s.refusedFor rest .useAfterDestroy)))

/-- R41, R43, R381: the life of the region. `dram_init` builds one whose every byte is an unconstrained draw, and is refused on a
live region, then on one that runs past the address space; `dram_destroy` ends it, and every later DRAM transaction but a new
construction is refused. The checks are the spec's decisions (spec/92 D4, D5, D21). Where a live region is asked for a region past
the address space too, R348 puts the second construction first and does not place the overflow: that order is log entry 21. The
bound `2^64` is `ADDR_W = 64` (spec/92 D3, log entry 15). The draws and the counter they are taken by are the model's (log entries 9,
4), so are the fields that a destroy leaves (log entry 26), a construction after a destroy (log entry 10) and the refusal mark that
stays (log entry 11). -/
def Obligations.DramLifecycle : Prop :=
  ∀ (s : State) (q : Request) (rest : List Request), s.Asks q rest →
    (∀ size base, q = .dramInit size base →
      (s.block.dramLive = true → step s = .next (s.refusedFor rest .alreadyLive)) ∧
      (s.block.dramLive = false → 2 ^ 64 < (base.getD 0x80000000#64).toNat + size →
        step s = .next (s.refusedFor rest .initOverflow)) ∧
      (s.block.dramLive = false → (base.getD 0x80000000#64).toNat + size ≤ 2 ^ 64 →
        ∃ b : Block,
          step s = .next (s.answered b rest .done) ∧
          b = { s.block with
            dramBase := base.getD 0x80000000#64, dramSize := size, mem := b.mem, dramLive := true,
            dramGen := s.block.dramGen + 1 } ∧
          ∀ off, b.byteAt off = Config.dramInit (s.block.dramGen + 1) off)) ∧
    (q = .dramDestroy → s.block.dramLive = true →
      step s = .next (s.answered { s.block with dramLive := false } rest .done)) ∧
    (s.block.dramLive = false →
      (q = .dramDestroy ∨ (∃ w a, q = .dramLoad w a) ∨ ∃ w a v, q = .dramStore w a v) →
        step s = .next (s.refusedFor rest .useAfterDestroy))

/-- R80, R390: a DRAM transaction changes neither the Stage-1 bank nor the columns nor DIAG: they are snapshots. -/
def Obligations.DramTransactionsLeaveTheDecoderAlone : Prop :=
  ∀ (s t : State) (q : Request) (rest : List Request),
    s.Asks q rest → q.isDram = true → step s = .next t →
      t.block.s1 = s.block.s1 ∧ t.block.cols = s.block.cols ∧ t.block.diag = s.block.diag ∧
      t.block.s2Live = s.block.s2Live ∧ t.block.params = s.block.params ∧ t.block.fault = s.block.fault ∧ t.busy = false

/-- R161, R162, R197 and files 43 to 49: a lane, and any transaction that is not the DRAM's, leaves the region and every byte
of it as they were. -/
def Obligations.DecodingNeverTouchesDram : Prop :=
  ∀ s t : State,
    (s.busy = true ∨ ∀ q rest, s.requests = q :: rest → q.isDram = false) → step s = .next t →
      t.block.dramBase = s.block.dramBase ∧ t.block.dramSize = s.block.dramSize ∧ t.block.dramLive = s.block.dramLive ∧
      t.block.dramGen = s.block.dramGen ∧ t.block.mem = s.block.mem ∧
      ∀ off, t.block.byteAt off = s.block.byteAt off

/-! ## What Stage-2 records for each instruction: completion, result and frame -/

/-- R-type (spec/43): accepted with all three registers packed and immediate 0. -/
def Obligations.RTypeRecordsItsEntry : Prop :=
  ∀ (rd rs1 rs2 : Reg) (s : State), rd ≠ 0#5 → s.block.hasRoom →
    exec (.add rd rs1 rs2) s = .next (s.recorded .add (packRegs rd rs1 rs2) 0#32) ∧
    exec (.sub rd rs1 rs2) s = .next (s.recorded .sub (packRegs rd rs1 rs2) 0#32) ∧
    exec (.sll rd rs1 rs2) s = .next (s.recorded .sll (packRegs rd rs1 rs2) 0#32) ∧
    exec (.slt rd rs1 rs2) s = .next (s.recorded .slt (packRegs rd rs1 rs2) 0#32) ∧
    exec (.sltu rd rs1 rs2) s = .next (s.recorded .sltu (packRegs rd rs1 rs2) 0#32) ∧
    exec (.xor rd rs1 rs2) s = .next (s.recorded .xor (packRegs rd rs1 rs2) 0#32) ∧
    exec (.srl rd rs1 rs2) s = .next (s.recorded .srl (packRegs rd rs1 rs2) 0#32) ∧
    exec (.sra rd rs1 rs2) s = .next (s.recorded .sra (packRegs rd rs1 rs2) 0#32) ∧
    exec (.or rd rs1 rs2) s = .next (s.recorded .or (packRegs rd rs1 rs2) 0#32) ∧
    exec (.and rd rs1 rs2) s = .next (s.recorded .and (packRegs rd rs1 rs2) 0#32)

/-- OP-IMM (spec/44): accepted with `(rd, rs1, 0)` and the whole sign-extended `imm_i`; `srai` records `0x400 + shamt`. -/
def Obligations.OpImmRecordsItsEntry : Prop :=
  ∀ (rd rs1 : Reg) (imm : BitVec 12) (shamt : BitVec 5) (s : State), rd ≠ 0#5 → s.block.hasRoom →
    exec (.addi rd rs1 imm) s = .next (s.recorded .addi (packRegs rd rs1 0) (imm.signExtend 32)) ∧
    exec (.slti rd rs1 imm) s = .next (s.recorded .slti (packRegs rd rs1 0) (imm.signExtend 32)) ∧
    exec (.sltiu rd rs1 imm) s = .next (s.recorded .sltiu (packRegs rd rs1 0) (imm.signExtend 32)) ∧
    exec (.xori rd rs1 imm) s = .next (s.recorded .xori (packRegs rd rs1 0) (imm.signExtend 32)) ∧
    exec (.ori rd rs1 imm) s = .next (s.recorded .ori (packRegs rd rs1 0) (imm.signExtend 32)) ∧
    exec (.andi rd rs1 imm) s = .next (s.recorded .andi (packRegs rd rs1 0) (imm.signExtend 32)) ∧
    exec (.slli rd rs1 shamt) s = .next (s.recorded .slli (packRegs rd rs1 0) (shamt.setWidth 32)) ∧
    exec (.srli rd rs1 shamt) s = .next (s.recorded .srli (packRegs rd rs1 0) (shamt.setWidth 32)) ∧
    exec (.srai rd rs1 shamt) s = .next (s.recorded .srai (packRegs rd rs1 0) (0x400#32 + shamt.setWidth 32))

/-- Loads (spec/45): accepted with `(rd, rs1, 0)` and the sign-extended offset. -/
def Obligations.LoadsRecordTheirEntry : Prop :=
  ∀ (rd rs1 : Reg) (imm : BitVec 12) (s : State), rd ≠ 0#5 → s.block.hasRoom →
    exec (.lb rd rs1 imm) s = .next (s.recorded .lb (packRegs rd rs1 0) (imm.signExtend 32)) ∧
    exec (.lh rd rs1 imm) s = .next (s.recorded .lh (packRegs rd rs1 0) (imm.signExtend 32)) ∧
    exec (.lw rd rs1 imm) s = .next (s.recorded .lw (packRegs rd rs1 0) (imm.signExtend 32)) ∧
    exec (.lbu rd rs1 imm) s = .next (s.recorded .lbu (packRegs rd rs1 0) (imm.signExtend 32)) ∧
    exec (.lhu rd rs1 imm) s = .next (s.recorded .lhu (packRegs rd rs1 0) (imm.signExtend 32))

/-- Stores and branches (spec/46, spec/47): accepted whatever bits 11:7 hold, with `(0, rs1, rs2)`. -/
def Obligations.StoresAndBranchesRecordTheirEntry : Prop :=
  ∀ (rs1 rs2 : Reg) (imm : BitVec 12) (off : BitVec 13) (s : State), s.block.hasRoom →
    exec (.sb rs1 rs2 imm) s = .next (s.recorded .sb (packRegs 0 rs1 rs2) (imm.signExtend 32)) ∧
    exec (.sh rs1 rs2 imm) s = .next (s.recorded .sh (packRegs 0 rs1 rs2) (imm.signExtend 32)) ∧
    exec (.sw rs1 rs2 imm) s = .next (s.recorded .sw (packRegs 0 rs1 rs2) (imm.signExtend 32)) ∧
    exec (.beq rs1 rs2 off) s = .next (s.recorded .beq (packRegs 0 rs1 rs2) (off.signExtend 32)) ∧
    exec (.bne rs1 rs2 off) s = .next (s.recorded .bne (packRegs 0 rs1 rs2) (off.signExtend 32)) ∧
    exec (.blt rs1 rs2 off) s = .next (s.recorded .blt (packRegs 0 rs1 rs2) (off.signExtend 32)) ∧
    exec (.bge rs1 rs2 off) s = .next (s.recorded .bge (packRegs 0 rs1 rs2) (off.signExtend 32)) ∧
    exec (.bltu rs1 rs2 off) s = .next (s.recorded .bltu (packRegs 0 rs1 rs2) (off.signExtend 32)) ∧
    exec (.bgeu rs1 rs2 off) s = .next (s.recorded .bgeu (packRegs 0 rs1 rs2) (off.signExtend 32))

/-- Jumps and upper immediates (spec/48). -/
def Obligations.JumpsAndUpperRecordTheirEntry : Prop :=
  ∀ (rd rs1 : Reg) (imm : BitVec 12) (off : BitVec 21) (imm20 : BitVec 20) (s : State), rd ≠ 0#5 → s.block.hasRoom →
    exec (.jalr rd rs1 imm) s = .next (s.recorded .jalr (packRegs rd rs1 0) (imm.signExtend 32)) ∧
    exec (.jal rd off) s = .next (s.recorded .jal (packRegs rd 0 0) (off.signExtend 32)) ∧
    exec (.lui rd imm20) s = .next (s.recorded .lui (packRegs rd 0 0) (imm20.setWidth 32 <<< 12)) ∧
    exec (.auipc rd imm20) s = .next (s.recorded .auipc (packRegs rd 0 0) (imm20.setWidth 32 <<< 12))

/-- ECALL and EBREAK (spec/49): accepted with any rd and rs1 fields, nothing packed, immediate 0 or 1. -/
def Obligations.SystemRecordsItsEntry : Prop :=
  ∀ (rd rs1 : Reg) (s : State), s.block.hasRoom →
    exec (.ecall rd rs1) s = .next (s.recorded .ecall 0x0000#16 0#32) ∧
    exec (.ebreak rd rs1) s = .next (s.recorded .ebreak 0x0000#16 1#32)

/-- R186 for the meanings: a writing operation with `rd = 0` drops its lane with one record of reason `x0_write`. -/
def Obligations.WritingToX0DropsTheLane : Prop :=
  ∀ (i : Instr) (s : State) (l : Lane), s.block.s1.lanes[s.lane]? = some l → decodeLane l = .instr i → l.rd = 0#5 →
    i.tag.cls.writesRd = true → exec i s = .next (s.dropped l.word .x0Write)

/-- R203, the spec's decision D13: an accepted operation that finds the columns full sets the fault and changes nothing else
(full is `OUT_CAP ≤ L`, log entry 17). -/
def Obligations.FullColumnsFaultOnAcceptance : Prop :=
  ∀ (i : Instr) (s : State) (l : Lane), ¬s.block.hasRoom →
    decodeLane l = .instr i → (i.tag.cls.writesRd = true → l.rd ≠ 0#5) →
      exec i s = .next { s with block := { s.block with fault := some .capacityExceeded } }

/-- R190, R192: whatever the instruction and the state, its meaning answers a next state in which the columns grew by one
element each, or one record was emitted, or the fault was set, and nothing else but the lane moved. -/
def Obligations.EveryInstructionChangesOnlyItsOutputs : Prop :=
  ∀ (i : Instr) (s : State), ∃ t, exec i s = .next t ∧
    t.busy = s.busy ∧ t.requests = s.requests ∧ t.responses = s.responses ∧
    t.block = { s.block with cols := t.block.cols, diag := t.block.diag, fault := t.block.fault } ∧
    (∀ off, t.block.byteAt off = s.block.byteAt off) ∧
    ((∃ p o r m, t.block.cols = ⟨s.block.cols.loc ++ [p], s.block.cols.op ++ [o], s.block.cols.regs ++ [r],
          s.block.cols.imm ++ [m]⟩ ∧ t.block.diag = s.block.diag ∧ t.block.fault = s.block.fault ∧ t.lane = s.lane + 1) ∨
     (∃ d, t.block.diag = s.block.diag ++ [d] ∧ t.block.cols = s.block.cols ∧ t.block.fault = s.block.fault ∧
        t.lane = s.lane + 1) ∨
     (t.block.fault = some .capacityExceeded ∧ t.block.cols = s.block.cols ∧ t.block.diag = s.block.diag ∧ t.lane = s.lane))

/-! ## A step of a call -/

/-- A step of a call (log entry 1) runs the instruction its lane's word decodes to, and then the call goes on or ends; the same said from the
word's bytes in DRAM order, and where `withFetchWord` puts a table word (log entry 23). -/
def Obligations.StepRunsTheDecodedInstruction : Prop :=
  (∀ (s t : State) (w : Word) (i : Instr), s.AtWord w → decode w = .instr i → exec i s = .next t →
    step s = .next t.afterLane) ∧
  (∀ (s t : State) (b0 b1 b2 b3 : Byte) (i : Instr), s.AtWord (wordOfBytes b0 b1 b2 b3) →
    decodeBytes [b0, b1, b2, b3] = .instr i → exec i s = .next t → step s = .next t.afterLane) ∧
  (∀ (s t : State) (w : Nat) (i : Instr), s.block.fault = none → decodeTableWord 32 w = some i →
    exec i (s.withFetchWord 32 w) = .next t → step (s.withFetchWord 32 w) = .next t.afterLane)

/-- What a step adds after a lane: the call goes on while lanes are left, ends with an answer after the last, and ends at
once on the capacity fault (R181, R203; log entry 1). -/
def Obligations.CallGoesOnUntilTheLastLane : Prop :=
  ∀ s : State,
    (∀ f, s.block.fault = some f →
      s.afterLane = { s with busy := false, lane := 0, responses := s.responses ++ [.faulted f] }) ∧
    (s.block.fault = none → s.lane < s.block.params.batchN → s.afterLane = s) ∧
    (s.block.fault = none → s.block.params.batchN ≤ s.lane →
      s.afterLane = { s with busy := false, lane := 0, responses := s.responses ++ [.done] })

/-! Every lane statement: an accepted lane needs room in the columns, a rejected one is dropped whether they are full or not (R190,
R203). -/

/-- R108, R109, R124, R125, R330: a lane of any opcode but the ten is dropped. The reason's name is the spec's decision (spec/92
D11). -/
def Obligations.UnknownOpcodeLaneIsDropped : Prop :=
  ∀ (s : State) (w : Word), s.AtWord w →
    w.extractLsb' 0 7 ∉ [0x33#7, 0x13#7, 0x03#7, 0x23#7, 0x63#7, 0x67#7, 0x6F#7, 0x37#7, 0x17#7, 0x73#7] →
      step s = .next (s.dropped w .opcode).afterLane

/-- R111, R240: a lane of opcode 0110011. -/
def Obligations.OpLaneFollowsTheFunctMap : Prop :=
  ∀ (s : State) (w : Word), s.AtWord w → w.extractLsb' 0 7 = 0x33#7 →
    let rows : List ((BitVec 3 × BitVec 7) × OpTag) :=
      [((0, 0x00), .add), ((0, 0x20), .sub), ((1, 0x00), .sll), ((2, 0x00), .slt), ((3, 0x00), .sltu), ((4, 0x00), .xor),
       ((5, 0x00), .srl), ((5, 0x20), .sra), ((6, 0x00), .or), ((7, 0x00), .and)]
    let key := (w.extractLsb' 12 3, w.extractLsb' 25 7)
    (∀ op, (key, op) ∈ rows → w.extractLsb' 7 5 ≠ 0#5 → s.block.hasRoom →
      step s = .next (s.recorded op (packRegs (w.extractLsb' 7 5) (w.extractLsb' 15 5) (w.extractLsb' 20 5)) 0#32).afterLane) ∧
    (∀ op, (key, op) ∈ rows → w.extractLsb' 7 5 = 0#5 → step s = .next (s.dropped w .x0Write).afterLane) ∧
    ((∀ op, (key, op) ∉ rows) → step s = .next (s.dropped w .funct7).afterLane)

/-- R259, R112: a lane of opcode 0010011; the shifts check bits 31:25 and record the whole `imm_i`. The funct3 numbers are the
spec's decision D26 (log entry 19). -/
def Obligations.OpImmLaneFollowsFunct3 : Prop :=
  ∀ (s : State) (w : Word), s.AtWord w → w.extractLsb' 0 7 = 0x13#7 →
    let plain : List (BitVec 3 × OpTag) := [(0, .addi), (2, .slti), (3, .sltiu), (4, .xori), (6, .ori), (7, .andi)]
    let shifts : List ((BitVec 3 × BitVec 7) × OpTag) := [((1, 0x00), .slli), ((5, 0x00), .srli), ((5, 0x20), .srai)]
    let found := fun op : OpTag =>
      (w.extractLsb' 12 3, op) ∈ plain ∨ ((w.extractLsb' 12 3, w.extractLsb' 25 7), op) ∈ shifts
    (∀ op, found op → w.extractLsb' 7 5 ≠ 0#5 → s.block.hasRoom →
      step s = .next (s.recorded op (packRegs (w.extractLsb' 7 5) (w.extractLsb' 15 5) 0) (immI w)).afterLane) ∧
    (∀ op, found op → w.extractLsb' 7 5 = 0#5 → step s = .next (s.dropped w .x0Write).afterLane) ∧
    ((∀ op, ¬found op) → step s = .next (s.dropped w .shamtHigh).afterLane)

/-- R113, R275: a lane of opcode 0000011. The funct3 numbers are the spec's decision D26 (log entry 19). -/
def Obligations.LoadLaneFollowsFunct3 : Prop :=
  ∀ (s : State) (w : Word), s.AtWord w → w.extractLsb' 0 7 = 0x03#7 →
    let rows : List (BitVec 3 × OpTag) := [(0, .lb), (1, .lh), (2, .lw), (4, .lbu), (5, .lhu)]
    (∀ op, (w.extractLsb' 12 3, op) ∈ rows → w.extractLsb' 7 5 ≠ 0#5 → s.block.hasRoom →
      step s = .next (s.recorded op (packRegs (w.extractLsb' 7 5) (w.extractLsb' 15 5) 0) (immI w)).afterLane) ∧
    (∀ op, (w.extractLsb' 12 3, op) ∈ rows → w.extractLsb' 7 5 = 0#5 → step s = .next (s.dropped w .x0Write).afterLane) ∧
    (w.extractLsb' 12 3 ∈ [3#3, 6#3, 7#3] → step s = .next (s.dropped w .funct3).afterLane)

/-- R114, R288: a lane of opcode 0100011; bits 11:7 are immediate bits and are not checked. The funct3 numbers are the spec's
decision D26 (log entry 19). -/
def Obligations.StoreLaneFollowsFunct3 : Prop :=
  (∀ (s : State) (w : Word), s.AtWord w → w.extractLsb' 0 7 = 0x23#7 →
    let rows : List (BitVec 3 × OpTag) := [(0, .sb), (1, .sh), (2, .sw)]
    (∀ op, (w.extractLsb' 12 3, op) ∈ rows → s.block.hasRoom →
      step s = .next (s.recorded op (packRegs 0 (w.extractLsb' 15 5) (w.extractLsb' 20 5)) (immS w)).afterLane) ∧
    (w.extractLsb' 12 3 ∈ [3#3, 4#3, 5#3, 6#3, 7#3] → step s = .next (s.dropped w .funct3).afterLane)) ∧
  ∀ s : State, s.AtWord 0x00312423#32 → s.block.hasRoom → step s = .next (s.recorded .sw 0x0043#16 8#32).afterLane

/-- R115, R301: a lane of opcode 1100011. The funct3 numbers are the spec's decision D26 (log entry 19). -/
def Obligations.BranchLaneFollowsFunct3 : Prop :=
  (∀ (s : State) (w : Word), s.AtWord w → w.extractLsb' 0 7 = 0x63#7 →
    let rows : List (BitVec 3 × OpTag) := [(0, .beq), (1, .bne), (4, .blt), (5, .bge), (6, .bltu), (7, .bgeu)]
    (∀ op, (w.extractLsb' 12 3, op) ∈ rows → s.block.hasRoom →
      step s = .next (s.recorded op (packRegs 0 (w.extractLsb' 15 5) (w.extractLsb' 20 5)) (immB w)).afterLane) ∧
    (w.extractLsb' 12 3 ∈ [2#3, 3#3] → step s = .next (s.dropped w .funct3).afterLane)) ∧
  ∀ s : State, s.AtWord 0x00208863#32 → s.block.hasRoom → step s = .next (s.recorded .beq 0x0022#16 16#32).afterLane

/-- R116 to R118, R393: lanes of the opcodes 1100111, 1101111, 0110111 and 0010111. -/
def Obligations.JumpAndUpperLanesFollowTheirOpcode : Prop :=
  ∀ (s : State) (w : Word), s.AtWord w →
    let opc := w.extractLsb' 0 7
    let rd := w.extractLsb' 7 5
    ((opc = 0x67#7 ∨ opc = 0x6F#7) → w.extractLsb' 12 3 ≠ 0#3 → step s = .next (s.dropped w .funct3).afterLane) ∧
    ((opc = 0x67#7 ∨ opc = 0x6F#7) → w.extractLsb' 12 3 = 0#3 → rd = 0#5 → step s = .next (s.dropped w .x0Write).afterLane) ∧
    ((opc = 0x37#7 ∨ opc = 0x17#7) → rd = 0#5 → step s = .next (s.dropped w .x0Write).afterLane) ∧
    (opc = 0x67#7 → w.extractLsb' 12 3 = 0#3 → rd ≠ 0#5 → s.block.hasRoom →
      step s = .next (s.recorded .jalr (packRegs rd (w.extractLsb' 15 5) 0) (immI w)).afterLane) ∧
    (opc = 0x6F#7 → w.extractLsb' 12 3 = 0#3 → rd ≠ 0#5 → s.block.hasRoom →
      step s = .next (s.recorded .jal (packRegs rd 0 0) (immJ w)).afterLane) ∧
    (opc = 0x37#7 → rd ≠ 0#5 → s.block.hasRoom → step s = .next (s.recorded .lui (packRegs rd 0 0) (immU w)).afterLane) ∧
    (opc = 0x17#7 → rd ≠ 0#5 → s.block.hasRoom → step s = .next (s.recorded .auipc (packRegs rd 0 0) (immU w)).afterLane)

/-- R119, R327, R328: a lane of opcode 1110011, whatever its rd and rs1 fields. -/
def Obligations.SystemLaneFollowsFunct3AndImmediate : Prop :=
  ∀ (s : State) (w : Word), s.AtWord w → w.extractLsb' 0 7 = 0x73#7 →
    (w.extractLsb' 12 3 ≠ 0#3 → step s = .next (s.dropped w .funct3).afterLane) ∧
    (w.extractLsb' 12 3 = 0#3 → immI w = 0#32 → s.block.hasRoom → step s = .next (s.recorded .ecall 0#16 0#32).afterLane) ∧
    (w.extractLsb' 12 3 = 0#3 → immI w = 1#32 → s.block.hasRoom → step s = .next (s.recorded .ebreak 0#16 1#32).afterLane) ∧
    (w.extractLsb' 12 3 = 0#3 → immI w ≠ 0#32 → immI w ≠ 1#32 → step s = .next (s.dropped w .imm).afterLane)

/-! ## The whole call -/

/-- The steps of a call do exactly what the pseudocode of R181 does in one piece: from the state whose next transaction is an
admissible `validate_and_pack`, at most `N + 1` steps lead to a state whose block is `packAll` of the first, with the call
over and answered; all `N + 1` are taken unless the capacity fault stopped it. The steps are the model's choice (log entry 1). -/
def Obligations.LaneStepsRealiseValidateAndPack : Prop :=
  ∀ (s : State) (rest : List Request), s.Asks .validateAndPack rest →
    s.block.s2Live = true → s.block.s1.valid = true → s.block.BankOk →
      ∃ (k : Nat) (t : State), k ≤ s.block.params.batchN ∧ Host.Core.run Sys2Proof.core (k + 1) s = .next t ∧
        t.block = s.block.packAll ∧ t.busy = false ∧ t.lane = 0 ∧ t.requests = rest ∧
        (t.block.fault = none → k = s.block.params.batchN ∧ t.responses = s.responses ++ [.done]) ∧
        (∀ f, t.block.fault = some f → t.responses = s.responses ++ [.faulted f])

/-- R192: with unbounded columns a call adds exactly the accepted lanes to `L`, and one record for every other lane. -/
def Obligations.CallAddsExactlyTheAcceptedLanes : Prop :=
  ∀ b : Block, b.params.outCap = none →
    b.packAll.cols.loc.length = b.cols.loc.length + acceptedCount b.s1.lanes ∧
    b.packAll.diag.length = b.diag.length + (b.s1.lanes.length - acceptedCount b.s1.lanes) ∧
    b.packAll.fault = b.fault

/-- R203: with columns of capacity `cap` a call stops at the first accepted lane that does not fit: `L` is the smaller of
what all accepted lanes would make and `cap`, and the fault is set exactly when they do not fit (the spec's decision D13). -/
def Obligations.CapacityStopsTheCall : Prop :=
  ∀ (b : Block) (cap : Nat), b.params.outCap = some cap → b.cols.loc.length ≤ cap → b.fault = none →
    b.packAll.cols.loc.length = min cap (b.cols.loc.length + acceptedCount b.s1.lanes) ∧
    (b.packAll.fault = some .capacityExceeded ↔ cap < b.cols.loc.length + acceptedCount b.s1.lanes)

/-- R193, R202 (spec/92 D25): a call only appends to the columns and DIAG; it changes no other part of the block, the bank least of all. -/
def Obligations.CallOnlyAppends : Prop :=
  ∀ b : Block, ∃ p o r m d f,
    b.packAll = { b with
      cols := ⟨b.cols.loc ++ p, b.cols.op ++ o, b.cols.regs ++ r, b.cols.imm ++ m⟩, diag := b.diag ++ d, fault := f } ∧
    o.length = p.length ∧ r.length = p.length ∧ m.length = p.length

/-- R202: "A second call on the same bank appends the same accepted entries again and emits the same records again" (columns
unbounded, so that no fault stops either call); the spec's decision D25. -/
def Obligations.SecondCallAppendsTheSameAgain : Prop :=
  ∀ b : Block, b.params.outCap = none → ∃ p o r m d,
    b.packAll = { b with
      cols := ⟨b.cols.loc ++ p, b.cols.op ++ o, b.cols.regs ++ r, b.cols.imm ++ m⟩, diag := b.diag ++ d } ∧
    b.packAll.packAll = { b with
      cols := ⟨b.cols.loc ++ p ++ p, b.cols.op ++ o ++ o, b.cols.regs ++ r ++ r, b.cols.imm ++ m ++ m⟩,
      diag := b.diag ++ d ++ d }

/-- R27, R189: a call's locations are `base + 4·i` of its lanes, modulo `2^32` (spec/92 D2, D23; log entry 15), and rise strictly
when the batch does not wrap. -/
def Obligations.LocationsRiseWithinACall : Prop :=
  ∀ b : Block, ∃ new : List Pc, b.packAll.cols.loc = b.cols.loc ++ new ∧
    (∀ p ∈ new, ∃ i < b.s1.lanes.length, p = b.s1.base + BitVec.ofNat 32 (4 * i)) ∧
    (b.s1.base.toNat + 4 * (b.s1.lanes.length - 1) < 2 ^ 32 → new.Pairwise fun p q => p.toNat < q.toNat)

/-! ## The other Stage-2 transactions and the scalar decode -/

/-- R180: an admissible `validate_and_pack` begins at lane 0 and changes nothing of the block (log entry 1); without a live
Stage-2 object or a valid bank it is refused (spec/92 D7, D21; the mark as in log entry 11). -/
def Obligations.ValidateAndPackBegins : Prop :=
  ∀ (s : State) (rest : List Request), s.Asks .validateAndPack rest →
    (s.block.s2Live = false → step s = .next (s.refusedFor rest .useAfterDestroy)) ∧
    (s.block.s2Live = true → s.block.s1.valid = false → step s = .next (s.refusedFor rest .noStage1Batch)) ∧
    (s.block.s2Live = true → s.block.s1.valid = true → 1 ≤ s.block.params.batchN →
      step s = .next { s with busy := true, lane := 0, requests := rest })

/-- R194, R197, R198, R383: construction, clearing and destruction of the Stage-2 object. The refusals are the spec's decision D21
(the mark as in log entry 11); that a destroyed object may be constructed again is the model's reading (log entry 28). That the
columns stay as they were when the object is destroyed is the model's choice (log entry 26: R198 says only that `s2_live` is
cleared), and so is the request that reads one column alone (log entry 27). -/
def Obligations.Stage2Lifecycle : Prop :=
  ∀ (s : State) (rest : List Request),
    (s.Asks .s2New rest → s.block.s2Live = false →
      step s = .next (s.answered { s.block with cols := ⟨[], [], [], []⟩, s2Live := true } rest .done)) ∧
    (s.Asks .s2New rest → s.block.s2Live = true → step s = .next (s.refusedFor rest .alreadyLive)) ∧
    (s.Asks .s2Clear rest → s.block.s2Live = true →
      step s = .next (s.answered { s.block with cols := ⟨[], [], [], []⟩ } rest .done)) ∧
    (s.Asks .s2Destroy rest → s.block.s2Live = true →
      step s = .next (s.answered { s.block with s2Live := false } rest .done)) ∧
    (∀ q, s.Asks q rest → s.block.s2Live = false →
      (q = .validateAndPack ∨ q = .s2Len ∨ (∃ k, q = .s2Read k) ∨ (∃ c k, q = .s2ReadColumn c k) ∨
        q = .s2Clear ∨ q = .s2Destroy) →
        step s = .next (s.refusedFor rest .useAfterDestroy))

/-- R195, R196: the length, and one element of each column, read at once or one column alone (the form of that request is the
model's choice, log entry 27); past the end a read is refused (spec/92 D15; the mark as in log entry 11), and no read changes the
block. -/
def Obligations.ColumnReadsAnswerTheElement : Prop :=
  ∀ (s : State) (rest : List Request), s.block.s2Live = true → s.block.cols.Lockstep →
    (s.Asks .s2Len rest → step s = .next (s.answered s.block rest (.length s.block.cols.loc.length))) ∧
    (∀ k (h : k < s.block.cols.loc.length), s.Asks (.s2Read k) rest →
      ∃ (ho : k < s.block.cols.op.length) (hr : k < s.block.cols.regs.length) (hm : k < s.block.cols.imm.length),
        step s = .next (s.answered s.block rest
          (.entry s.block.cols.loc[k] s.block.cols.op[k] s.block.cols.regs[k] s.block.cols.imm[k]))) ∧
    (∀ k, s.block.cols.loc.length ≤ k → s.Asks (.s2Read k) rest → step s = .next (s.refusedFor rest .indexOutOfRange)) ∧
    (∀ k (h : k < s.block.cols.loc.length),
      ∃ (ho : k < s.block.cols.op.length) (hr : k < s.block.cols.regs.length) (hm : k < s.block.cols.imm.length),
        (s.Asks (.s2ReadColumn .loc k) rest → step s = .next (s.answered s.block rest (.element (.loc s.block.cols.loc[k])))) ∧
        (s.Asks (.s2ReadColumn .op k) rest → step s = .next (s.answered s.block rest (.element (.op s.block.cols.op[k])))) ∧
        (s.Asks (.s2ReadColumn .regs k) rest → step s = .next (s.answered s.block rest (.element (.regs s.block.cols.regs[k])))) ∧
        (s.Asks (.s2ReadColumn .imm k) rest → step s = .next (s.answered s.block rest (.element (.imm s.block.cols.imm[k]))))) ∧
    (∀ c k, s.block.cols.loc.length ≤ k → s.Asks (.s2ReadColumn c k) rest →
      step s = .next (s.refusedFor rest .indexOutOfRange))

/-- R347: the refusal of a request that is none of the transactions. That the scalar decode of a block without it, and a batch of
a length other than `N`, are such requests is the model's reading (log entries 14, 13; the mark as in log entry 11). -/
def Obligations.UnknownRequestsAreRefused : Prop :=
  ∀ (s : State) (rest : List Request),
    (s.Asks .unsupported rest → step s = .next (s.refusedFor rest .unsupported)) ∧
    (∀ w, s.Asks (.decodeOne w) rest → s.block.params.hasScalar = false → step s = .next (s.refusedFor rest .unsupported)) ∧
    (∀ base words, s.Asks (.s1Decode base words) rest → words.length ≠ s.block.params.batchN →
      step s = .next (s.refusedFor rest .unsupported))

/-- R200: the scalar decode of a word answers what `classify` says of it, changes no state of the block and emits no record (spec/92
D24). -/
def Obligations.ScalarDecodeAnswersTheClassification : Prop :=
  ∀ (s : State) (w : Word) (rest : List Request), s.Asks (.decodeOne w) rest → s.block.params.hasScalar = true →
    (∀ op cls, classify (extract w) = .accept op cls →
      step s = .next (s.answered s.block rest (.decoded op (packOf cls (extract w)) (immOf cls (extract w))))) ∧
    (∀ r k, classify (extract w) = .reject r →
      (r, k) ∈ [(Reason.opcode, ErrorKind.unknownOpcode), (.funct3, .unknownFunct3), (.funct7, .unknownFunct7),
        (.shamtHigh, .unknownShamtHigh), (.imm, .unknownImmediate), (.x0Write, .writesToX0)] →
      step s = .next (s.answered s.block rest (.rejected k)))

/-- R35, with the shift formula of R33. -/
def Obligations.PackedRegistersUnpack : Prop :=
  ∀ rd rs1 rs2 : Reg,
    getRd (packRegs rd rs1 rs2) = rd ∧ getRs1 (packRegs rd rs1 rs2) = rs1 ∧ getRs2 (packRegs rd rs1 rs2) = rs2 ∧
    packRegs rd rs1 rs2 = (rd.setWidth 16 <<< 10) ||| (rs1.setWidth 16 <<< 5) ||| rs2.setWidth 16 ∧
    (packRegs rd rs1 rs2).getLsbD 15 = false

/-! ## Reset, invariants and whole-machine rules -/

/-- R381 to R385: what the constructors leave, and DRAM as unconstrained draws. The model's own reset values (log entries 6, 7, 8)
are not stated. -/
def Obligations.ResetIsTheConstructedBlock : Prop :=
  State.reset.block.dramBase = 0x80000000#64 ∧ State.reset.block.dramLive = true ∧
  (∀ off, State.reset.block.byteAt off = Config.dramInit State.reset.block.dramGen off) ∧
  State.reset.block.s1.valid = false ∧ State.reset.block.cols = ⟨[], [], [], []⟩ ∧ State.reset.block.s2Live = true ∧
  State.reset.block.diag = [] ∧ State.reset.block.fault = none ∧ State.reset.block.refused = none

/-- The invariant holds at reset. That the reset bank holds `N` extracted records, and the values of `N` and of the region's size,
are the model's choices (log entries 6, 7, 8); R382 leaves the lane fields unspecified. -/
def Obligations.ResetSatisfiesTheInvariant : Prop :=
  State.reset.Inv

/-- Every step keeps the invariant: canonical DRAM inside its region, a coherent bank, columns that hold only entries Stage-2
can record (R199), and a call that stands at one of its lanes. -/
def Obligations.StepKeepsTheInvariant : Prop :=
  ∀ s t : State, s.Inv → step s = .next t → t.Inv

/-- R28, R30, R346, R347, R37: DIAG only grows, the marks are never cleared (that the first refusal's reason stays is the model's
reading, log entry 11), a faulted state takes no step (log entry 12), and the parameters are fixed for the life of the block. -/
def Obligations.DiagAndMarksAreForGood : Prop :=
  (∀ s t : State, step s = .next t →
    (∃ d, t.block.diag = s.block.diag ++ d) ∧ (∀ r, s.block.refused = some r → t.block.refused = some r) ∧
    t.block.params = s.block.params ∧ s.block.fault = none) ∧
  ∀ (s : State) (f : Fault), s.block.fault = some f → step s = .fault f

/-- R346: with unbounded columns no step faults or sets the fault, so "There is no fatal path inside the core". -/
def Obligations.UnboundedColumnsNeverFault : Prop :=
  ∀ s : State, s.block.params.outCap = none → s.block.fault = none →
    ∃ t, step s = .next t ∧ t.block.fault = none
end

