-- ==== Sys2Proof/Laws/Decode.lean ====
section
/-! SUPPORT. The decoder and the tree by opcode, the fields of an extracted lane, and two facts of every decoded lane. -/

namespace Sys2Proof

/-! ## The fields of an extracted lane -/

@[simp] theorem extract_opcode (w : Word) : (extract w).opcode = w.extractLsb' 0 7 := rfl
@[simp] theorem extract_rd (w : Word) : (extract w).rd = w.extractLsb' 7 5 := rfl
@[simp] theorem extract_funct3 (w : Word) : (extract w).funct3 = w.extractLsb' 12 3 := rfl
@[simp] theorem extract_rs1 (w : Word) : (extract w).rs1 = w.extractLsb' 15 5 := rfl
@[simp] theorem extract_rs2 (w : Word) : (extract w).rs2 = w.extractLsb' 20 5 := rfl
@[simp] theorem extract_funct7 (w : Word) : (extract w).funct7 = w.extractLsb' 25 7 := rfl
@[simp] theorem extract_immI (w : Word) : (extract w).immI = immI w := rfl
@[simp] theorem extract_immS (w : Word) : (extract w).immS = immS w := rfl
@[simp] theorem extract_immB (w : Word) : (extract w).immB = immB w := rfl
@[simp] theorem extract_immU (w : Word) : (extract w).immU = immU w := rfl
@[simp] theorem extract_immJ (w : Word) : (extract w).immJ = immJ w := rfl

/-! ## One equation of the decoder and of the tree for each opcode -/

theorem decodeLane_of_op {l : Lane} (h : l.opcode = opcOp) : decodeLane l = decodeOp l := by
  simp [decodeLane, h]
theorem classify_of_op {l : Lane} (h : l.opcode = opcOp) :
    classify l =
      verdictOf l (rMap l.funct3 l.funct7) .rtype .funct7 := by
  simp [classify, h]
theorem decodeLane_of_opImm {l : Lane} (h : l.opcode = opcOpImm) : decodeLane l = decodeOpImm l := by
  simp [decodeLane, h, opcOp, opcOpImm]
theorem classify_of_opImm {l : Lane} (h : l.opcode = opcOpImm) :
    classify l =
      if l.funct3 = 1#3 ∨ l.funct3 = 5#3 then verdictOf l (shiftMap l.funct3 l.shamtHigh) .ialu .shamtHigh
      else acceptUnlessX0 l (immMap l.funct3) .ialu := by
  simp [classify, h, opcOp, opcOpImm]
theorem decodeLane_of_load {l : Lane} (h : l.opcode = opcLoad) : decodeLane l = decodeLoad l := by
  simp [decodeLane, h, opcOp, opcOpImm, opcLoad]
theorem classify_of_load {l : Lane} (h : l.opcode = opcLoad) :
    classify l =
      verdictOf l (loadMap l.funct3) .load .funct3 := by
  simp [classify, h, opcOp, opcOpImm, opcLoad]
theorem decodeLane_of_store {l : Lane} (h : l.opcode = opcStore) : decodeLane l = decodeStore l := by
  simp [decodeLane, h, opcOp, opcOpImm, opcLoad, opcStore]
theorem classify_of_store {l : Lane} (h : l.opcode = opcStore) :
    classify l =
      verdictOf l (storeMap l.funct3) .store .funct3 := by
  simp [classify, h, opcOp, opcOpImm, opcLoad, opcStore]
theorem decodeLane_of_branch {l : Lane} (h : l.opcode = opcBranch) : decodeLane l = decodeBranch l := by
  simp [decodeLane, h, opcOp, opcOpImm, opcLoad, opcStore, opcBranch]
theorem classify_of_branch {l : Lane} (h : l.opcode = opcBranch) :
    classify l =
      verdictOf l (branchMap l.funct3) .branch .funct3 := by
  simp [classify, h, opcOp, opcOpImm, opcLoad, opcStore, opcBranch]
theorem decodeLane_of_jalr {l : Lane} (h : l.opcode = opcJalr) : decodeLane l = decodeJalr l := by
  simp [decodeLane, h, opcOp, opcOpImm, opcLoad, opcStore, opcBranch, opcJalr]
theorem classify_of_jalr {l : Lane} (h : l.opcode = opcJalr) :
    classify l =
      if l.funct3 = 0#3 then acceptUnlessX0 l .jalr .jumpReg else .reject .funct3 := by
  simp [classify, h, opcOp, opcOpImm, opcLoad, opcStore, opcBranch, opcJalr]
theorem decodeLane_of_jal {l : Lane} (h : l.opcode = opcJal) : decodeLane l = decodeJal l := by
  simp [decodeLane, h, opcOp, opcOpImm, opcLoad, opcStore, opcBranch, opcJalr, opcJal]
theorem classify_of_jal {l : Lane} (h : l.opcode = opcJal) :
    classify l =
      if l.funct3 = 0#3 then acceptUnlessX0 l .jal .jumpLink else .reject .funct3 := by
  simp [classify, h, opcOp, opcOpImm, opcLoad, opcStore, opcBranch, opcJalr, opcJal]
theorem decodeLane_of_lui {l : Lane} (h : l.opcode = opcLui) : decodeLane l = .instr (.lui l.rd l.upperImm) := by
  simp [decodeLane, h, opcOp, opcOpImm, opcLoad, opcStore, opcBranch, opcJalr, opcJal, opcLui]
theorem classify_of_lui {l : Lane} (h : l.opcode = opcLui) :
    classify l =
      acceptUnlessX0 l .lui .upper := by
  simp [classify, h, opcOp, opcOpImm, opcLoad, opcStore, opcBranch, opcJalr, opcJal, opcLui]
theorem decodeLane_of_auipc {l : Lane} (h : l.opcode = opcAuipc) : decodeLane l = .instr (.auipc l.rd l.upperImm) := by
  simp [decodeLane, h, opcOp, opcOpImm, opcLoad, opcStore, opcBranch, opcJalr, opcJal, opcLui, opcAuipc]
theorem classify_of_auipc {l : Lane} (h : l.opcode = opcAuipc) :
    classify l =
      acceptUnlessX0 l .auipc .upper := by
  simp [classify, h, opcOp, opcOpImm, opcLoad, opcStore, opcBranch, opcJalr, opcJal, opcLui, opcAuipc]
theorem decodeLane_of_system {l : Lane} (h : l.opcode = opcSystem) : decodeLane l = decodeSystem l := by
  simp [decodeLane, h, opcOp, opcOpImm, opcLoad, opcStore, opcBranch, opcJalr, opcJal, opcLui, opcAuipc, opcSystem]
theorem classify_of_system {l : Lane} (h : l.opcode = opcSystem) :
    classify l =
      if l.funct3 = 0#3 then
        if l.immI = 0#32 then acceptUnlessX0 l .ecall .system
        else if l.immI = 1#32 then acceptUnlessX0 l .ebreak .system
        else .reject .imm
      else .reject .funct3 := by
  simp [classify, h, opcOp, opcOpImm, opcLoad, opcStore, opcBranch, opcJalr, opcJal, opcLui, opcAuipc, opcSystem]

/-- The ten opcodes of R108. -/
def knownOpcodes : List (BitVec 7) :=
  [opcOp, opcOpImm, opcLoad, opcStore, opcBranch, opcJalr, opcJal, opcLui, opcAuipc, opcSystem]

theorem decodeLane_of_unknown {l : Lane} (h : l.opcode ∉ knownOpcodes) : decodeLane l = .reject .opcode := by
  simp only [knownOpcodes, List.mem_cons, List.not_mem_nil, or_false, not_or] at h
  obtain ⟨h1, h2, h3, h4, h5, h6, h7, h8, h9, h10⟩ := h
  simp [decodeLane, h1, h2, h3, h4, h5, h6, h7, h8, h9, h10]

theorem classify_of_unknown {l : Lane} (h : l.opcode ∉ knownOpcodes) : classify l = .reject .opcode := by
  simp only [knownOpcodes, List.mem_cons, List.not_mem_nil, or_false, not_or] at h
  obtain ⟨h1, h2, h3, h4, h5, h6, h7, h8, h9, h10⟩ := h
  simp [classify, h1, h2, h3, h4, h5, h6, h7, h8, h9, h10]

/-- A choice between two things that are not `c` is not `c`. -/
theorem ite_ne_of {α : Type} {p : Prop} [Decidable p] {a b c : α} (ha : a ≠ c) (hb : b ≠ c) :
    (if p then a else b) ≠ c := by
  split <;> assumption

/-- A lane always holds a whole word. -/
theorem decodeLane_ne_truncated (l : Lane) : decodeLane l ≠ .truncated := by
  unfold decodeLane decodeOp decodeOpImm decodeLoad decodeStore decodeBranch decodeJalr decodeJal decodeSystem
  repeat' apply ite_ne_of
  all_goals exact fun h => nomatch h

end Sys2Proof
end

