-- ==== Sys2Proof/Laws/State.lean ====
section
/-! SUPPORT. What each named update of a state, a block or the columns leaves in each field, by definition. -/

namespace Sys2Proof.Machine

@[simp] theorem State_respond_block (s : State) (r : Response) :
    (s.respond r).block = s.block := rfl
@[simp] theorem State_respond_busy (s : State) (r : Response) :
    (s.respond r).busy = s.busy := rfl
@[simp] theorem State_respond_lane (s : State) (r : Response) :
    (s.respond r).lane = s.lane := rfl
@[simp] theorem State_respond_requests (s : State) (r : Response) :
    (s.respond r).requests = s.requests := rfl
@[simp] theorem State_respond_responses (s : State) (r : Response) :
    (s.respond r).responses = s.responses ++ [r] := rfl

@[simp] theorem State_raise_block (s : State) (e : BoundaryError) :
    (s.raise e).block = s.block := rfl
@[simp] theorem State_raise_busy (s : State) (e : BoundaryError) :
    (s.raise e).busy = s.busy := rfl
@[simp] theorem State_raise_lane (s : State) (e : BoundaryError) :
    (s.raise e).lane = s.lane := rfl
@[simp] theorem State_raise_requests (s : State) (e : BoundaryError) :
    (s.raise e).requests = s.requests := rfl
@[simp] theorem State_raise_responses (s : State) (e : BoundaryError) :
    (s.raise e).responses = s.responses ++ [.boundaryError e] := rfl

@[simp] theorem State_refuse_block (s : State) (r : RefusalReason) :
    (s.refuse r).block = s.block.markRefused r := rfl
@[simp] theorem State_refuse_busy (s : State) (r : RefusalReason) :
    (s.refuse r).busy = s.busy := rfl
@[simp] theorem State_refuse_lane (s : State) (r : RefusalReason) :
    (s.refuse r).lane = s.lane := rfl
@[simp] theorem State_refuse_requests (s : State) (r : RefusalReason) :
    (s.refuse r).requests = s.requests := rfl
@[simp] theorem State_refuse_responses (s : State) (r : RefusalReason) :
    (s.refuse r).responses = s.responses ++ [.refused r] := rfl

@[simp] theorem State_submit_block (s : State) (q : Request) :
    (s.submit q).block = s.block := rfl
@[simp] theorem State_submit_busy (s : State) (q : Request) :
    (s.submit q).busy = s.busy := rfl
@[simp] theorem State_submit_lane (s : State) (q : Request) :
    (s.submit q).lane = s.lane := rfl
@[simp] theorem State_submit_requests (s : State) (q : Request) :
    (s.submit q).requests = s.requests ++ [q] := rfl
@[simp] theorem State_submit_responses (s : State) (q : Request) :
    (s.submit q).responses = s.responses := rfl

@[simp] theorem State_dropLane_block (s : State) (r : Reason) :
    (s.dropLane r).block = s.block.emit (diagOf (s.block.s1.laneAt s.lane) s.lane r) := rfl
@[simp] theorem State_dropLane_busy (s : State) (r : Reason) :
    (s.dropLane r).busy = s.busy := rfl
@[simp] theorem State_dropLane_lane (s : State) (r : Reason) :
    (s.dropLane r).lane = s.lane + 1 := rfl
@[simp] theorem State_dropLane_requests (s : State) (r : Reason) :
    (s.dropLane r).requests = s.requests := rfl
@[simp] theorem State_dropLane_responses (s : State) (r : Reason) :
    (s.dropLane r).responses = s.responses := rfl

@[simp] theorem Block_markFault_params (b : Block) (f : Fault) :
    (b.markFault f).params = b.params := rfl
@[simp] theorem Block_markFault_dramBase (b : Block) (f : Fault) :
    (b.markFault f).dramBase = b.dramBase := rfl
@[simp] theorem Block_markFault_dramSize (b : Block) (f : Fault) :
    (b.markFault f).dramSize = b.dramSize := rfl
@[simp] theorem Block_markFault_mem (b : Block) (f : Fault) :
    (b.markFault f).mem = b.mem := rfl
@[simp] theorem Block_markFault_dramLive (b : Block) (f : Fault) :
    (b.markFault f).dramLive = b.dramLive := rfl
@[simp] theorem Block_markFault_dramGen (b : Block) (f : Fault) :
    (b.markFault f).dramGen = b.dramGen := rfl
@[simp] theorem Block_markFault_s1 (b : Block) (f : Fault) :
    (b.markFault f).s1 = b.s1 := rfl
@[simp] theorem Block_markFault_cols (b : Block) (f : Fault) :
    (b.markFault f).cols = b.cols := rfl
@[simp] theorem Block_markFault_diag (b : Block) (f : Fault) :
    (b.markFault f).diag = b.diag := rfl
@[simp] theorem Block_markFault_s2Live (b : Block) (f : Fault) :
    (b.markFault f).s2Live = b.s2Live := rfl
@[simp] theorem Block_markFault_fault (b : Block) (f : Fault) :
    (b.markFault f).fault = some f := rfl
@[simp] theorem Block_markFault_refused (b : Block) (f : Fault) :
    (b.markFault f).refused = b.refused := rfl

@[simp] theorem Block_emit_params (b : Block) (d : DiagRecord) :
    (b.emit d).params = b.params := rfl
@[simp] theorem Block_emit_dramBase (b : Block) (d : DiagRecord) :
    (b.emit d).dramBase = b.dramBase := rfl
@[simp] theorem Block_emit_dramSize (b : Block) (d : DiagRecord) :
    (b.emit d).dramSize = b.dramSize := rfl
@[simp] theorem Block_emit_mem (b : Block) (d : DiagRecord) :
    (b.emit d).mem = b.mem := rfl
@[simp] theorem Block_emit_dramLive (b : Block) (d : DiagRecord) :
    (b.emit d).dramLive = b.dramLive := rfl
@[simp] theorem Block_emit_dramGen (b : Block) (d : DiagRecord) :
    (b.emit d).dramGen = b.dramGen := rfl
@[simp] theorem Block_emit_s1 (b : Block) (d : DiagRecord) :
    (b.emit d).s1 = b.s1 := rfl
@[simp] theorem Block_emit_cols (b : Block) (d : DiagRecord) :
    (b.emit d).cols = b.cols := rfl
@[simp] theorem Block_emit_diag (b : Block) (d : DiagRecord) :
    (b.emit d).diag = b.diag ++ [d] := rfl
@[simp] theorem Block_emit_s2Live (b : Block) (d : DiagRecord) :
    (b.emit d).s2Live = b.s2Live := rfl
@[simp] theorem Block_emit_fault (b : Block) (d : DiagRecord) :
    (b.emit d).fault = b.fault := rfl
@[simp] theorem Block_emit_refused (b : Block) (d : DiagRecord) :
    (b.emit d).refused = b.refused := rfl

@[simp] theorem Block_appendEntry_params (b : Block) (p : Pc) (o : OpTag) (r : Packed) (m : Imm) :
    (b.appendEntry p o r m).params = b.params := rfl
@[simp] theorem Block_appendEntry_dramBase (b : Block) (p : Pc) (o : OpTag) (r : Packed) (m : Imm) :
    (b.appendEntry p o r m).dramBase = b.dramBase := rfl
@[simp] theorem Block_appendEntry_dramSize (b : Block) (p : Pc) (o : OpTag) (r : Packed) (m : Imm) :
    (b.appendEntry p o r m).dramSize = b.dramSize := rfl
@[simp] theorem Block_appendEntry_mem (b : Block) (p : Pc) (o : OpTag) (r : Packed) (m : Imm) :
    (b.appendEntry p o r m).mem = b.mem := rfl
@[simp] theorem Block_appendEntry_dramLive (b : Block) (p : Pc) (o : OpTag) (r : Packed) (m : Imm) :
    (b.appendEntry p o r m).dramLive = b.dramLive := rfl
@[simp] theorem Block_appendEntry_dramGen (b : Block) (p : Pc) (o : OpTag) (r : Packed) (m : Imm) :
    (b.appendEntry p o r m).dramGen = b.dramGen := rfl
@[simp] theorem Block_appendEntry_s1 (b : Block) (p : Pc) (o : OpTag) (r : Packed) (m : Imm) :
    (b.appendEntry p o r m).s1 = b.s1 := rfl
@[simp] theorem Block_appendEntry_cols (b : Block) (p : Pc) (o : OpTag) (r : Packed) (m : Imm) :
    (b.appendEntry p o r m).cols = b.cols.append p o r m := rfl
@[simp] theorem Block_appendEntry_diag (b : Block) (p : Pc) (o : OpTag) (r : Packed) (m : Imm) :
    (b.appendEntry p o r m).diag = b.diag := rfl
@[simp] theorem Block_appendEntry_s2Live (b : Block) (p : Pc) (o : OpTag) (r : Packed) (m : Imm) :
    (b.appendEntry p o r m).s2Live = b.s2Live := rfl
@[simp] theorem Block_appendEntry_fault (b : Block) (p : Pc) (o : OpTag) (r : Packed) (m : Imm) :
    (b.appendEntry p o r m).fault = b.fault := rfl
@[simp] theorem Block_appendEntry_refused (b : Block) (p : Pc) (o : OpTag) (r : Packed) (m : Imm) :
    (b.appendEntry p o r m).refused = b.refused := rfl

@[simp] theorem Columns_append_loc (c : Columns) (p : Pc) (o : OpTag) (r : Packed) (m : Imm) :
    (c.append p o r m).loc = c.loc ++ [p] := rfl
@[simp] theorem Columns_append_op (c : Columns) (p : Pc) (o : OpTag) (r : Packed) (m : Imm) :
    (c.append p o r m).op = c.op ++ [o] := rfl
@[simp] theorem Columns_append_regs (c : Columns) (p : Pc) (o : OpTag) (r : Packed) (m : Imm) :
    (c.append p o r m).regs = c.regs ++ [r] := rfl
@[simp] theorem Columns_append_imm (c : Columns) (p : Pc) (o : OpTag) (r : Packed) (m : Imm) :
    (c.append p o r m).imm = c.imm ++ [m] := rfl

@[simp] theorem Block_markRefused_params (b : Block) (r : RefusalReason) :
    (b.markRefused r).params = b.params := by
  unfold Block.markRefused; split <;> rfl
@[simp] theorem Block_markRefused_dramBase (b : Block) (r : RefusalReason) :
    (b.markRefused r).dramBase = b.dramBase := by
  unfold Block.markRefused; split <;> rfl
@[simp] theorem Block_markRefused_dramSize (b : Block) (r : RefusalReason) :
    (b.markRefused r).dramSize = b.dramSize := by
  unfold Block.markRefused; split <;> rfl
@[simp] theorem Block_markRefused_mem (b : Block) (r : RefusalReason) :
    (b.markRefused r).mem = b.mem := by
  unfold Block.markRefused; split <;> rfl
@[simp] theorem Block_markRefused_dramLive (b : Block) (r : RefusalReason) :
    (b.markRefused r).dramLive = b.dramLive := by
  unfold Block.markRefused; split <;> rfl
@[simp] theorem Block_markRefused_dramGen (b : Block) (r : RefusalReason) :
    (b.markRefused r).dramGen = b.dramGen := by
  unfold Block.markRefused; split <;> rfl
@[simp] theorem Block_markRefused_s1 (b : Block) (r : RefusalReason) :
    (b.markRefused r).s1 = b.s1 := by
  unfold Block.markRefused; split <;> rfl
@[simp] theorem Block_markRefused_cols (b : Block) (r : RefusalReason) :
    (b.markRefused r).cols = b.cols := by
  unfold Block.markRefused; split <;> rfl
@[simp] theorem Block_markRefused_diag (b : Block) (r : RefusalReason) :
    (b.markRefused r).diag = b.diag := by
  unfold Block.markRefused; split <;> rfl
@[simp] theorem Block_markRefused_s2Live (b : Block) (r : RefusalReason) :
    (b.markRefused r).s2Live = b.s2Live := by
  unfold Block.markRefused; split <;> rfl
@[simp] theorem Block_markRefused_fault (b : Block) (r : RefusalReason) :
    (b.markRefused r).fault = b.fault := by
  unfold Block.markRefused; split <;> rfl
@[simp] theorem Block_markRefused_refused (b : Block) (r : RefusalReason) :
    (b.markRefused r).refused = some (b.refused.getD r) := by
  unfold Block.markRefused; cases h : b.refused <;> simp [h]

/-- Setting the refusal mark changes that field only. -/
theorem Block_markRefused_eq (b : Block) (r : RefusalReason) :
    b.markRefused r = { b with refused := some (b.refused.getD r) } := by
  unfold Block.markRefused
  cases h : b.refused with
  | none => rfl
  | some x => cases b; simp_all

/-- The byte at an offset depends on the written bytes and the construction only. -/
theorem Block_byteAt_congr {b c : Block} (hm : c.mem = b.mem) (hg : c.dramGen = b.dramGen) (off : Nat) :
    c.byteAt off = b.byteAt off := by
  simp only [Block.byteAt, hm, hg]

end Sys2Proof.Machine
end

