-- ==== Sys2Proof/Laws/Memory.lean ====
section
/-! SUPPORT. The written bytes of DRAM: read after write, and the canonical form that every write keeps. -/

namespace Sys2Proof.Machine

theorem Memory_read_write_same (m : Memory) (k : Nat) (v : Byte) : (Memory.write m k v).read k = some v := by
  induction m with
  | nil => simp [Memory.write, Memory.read]
  | cons c rest ih =>
    obtain ⟨a, b⟩ := c
    simp only [Memory.write]
    split
    · simp [Memory.read]
    · split
      · simp [Memory.read]
      · next h => simp only [Memory.read]; rw [if_neg (by omega), ih]

theorem Memory_read_write_other (m : Memory) {k j : Nat} (v : Byte) (h : j ≠ k) :
    (Memory.write m k v).read j = Memory.read m j := by
  induction m with
  | nil => simp [Memory.write, Memory.read, Ne.symm h]
  | cons c rest ih =>
    obtain ⟨a, b⟩ := c
    simp only [Memory.write]
    split
    · simp [Memory.read, Ne.symm h]
    · split
      · next ha => subst ha; simp [Memory.read, Ne.symm h]
      · simp only [Memory.read, ih]

theorem Memory_risesFrom_mono {k j : Nat} (h : j ≤ k) : ∀ m : Memory, m.risesFrom k = true → m.risesFrom j = true
  | [], _ => rfl
  | (a, _) :: rest, hm => by
    simp only [Memory.risesFrom, Bool.and_eq_true, decide_eq_true_eq] at hm ⊢
    exact ⟨h.trans hm.1, hm.2⟩

theorem Memory_risesFrom_write (k : Nat) (v : Byte) :
    ∀ (j : Nat) (m : Memory), j ≤ k → m.risesFrom j = true → (m.write k v).risesFrom j = true
  | j, [], hj, _ => by simp [Memory.write, Memory.risesFrom, hj]
  | j, (a, b) :: rest, hj, hm => by
    simp only [Memory.risesFrom, Bool.and_eq_true, decide_eq_true_eq] at hm
    simp only [Memory.write]
    split
    · next h => simp [Memory.risesFrom, hj, hm.2, Nat.succ_le_of_lt h]
    · split
      · next h => subst h; simp [Memory.risesFrom, hj, hm.2]
      · next h h' =>
        simp only [Memory.risesFrom, Bool.and_eq_true, decide_eq_true_eq]
        exact ⟨hm.1, Memory_risesFrom_write k v (a + 1) rest (by omega) hm.2⟩

/-- A write keeps the canonical form. -/
theorem Memory_wf_write (m : Memory) (k : Nat) (v : Byte) (h : m.wf = true) : (m.write k v).wf = true :=
  Memory_risesFrom_write k v 0 m (Nat.zero_le k) h

theorem Memory_wf_writeBytes (m : Memory) (off : Nat) (v : Value) (h : m.wf = true) :
    ∀ n, (m.writeBytes off v n).wf = true
  | 0 => h
  | n + 1 => Memory_wf_write _ _ _ (Memory_wf_writeBytes m off v h n)

theorem Memory_wf_reset : State.reset.block.mem.wf = true := rfl

/-- An entry of the list after a write is the written one or was there before. -/
theorem Memory_mem_write (m : Memory) (k : Nat) (v : Byte) (c : Host.Cell) (h : c ∈ m.write k v) :
    c = (k, v) ∨ c ∈ m := by
  induction m with
  | nil => simpa [Memory.write] using h
  | cons x rest ih =>
    obtain ⟨a, b⟩ := x
    simp only [Memory.write] at h
    split at h
    · simpa using h
    · split at h
      · simp only [List.mem_cons] at h ⊢; tauto
      · simp only [List.mem_cons] at h ⊢
        rcases h with h | h
        · exact .inr (.inl h)
        · rcases ih h with h | h <;> tauto

theorem Memory_mem_writeBytes (m : Memory) (off : Nat) (v : Value) (c : Host.Cell) :
    ∀ n, c ∈ m.writeBytes off v n → c ∈ m ∨ (off ≤ c.1 ∧ c.1 < off + n)
  | 0, h => .inl h
  | n + 1, h => by
    rcases Memory_mem_write _ _ _ _ h with rfl | h
    · right; constructor <;> simp
    · rcases Memory_mem_writeBytes m off v c n h with h | h
      · exact .inl h
      · right; omega

/-- What a run of byte writes leaves at an offset. -/
theorem Memory_read_writeBytes (m : Memory) (off : Nat) (v : Value) (j : Nat) :
    ∀ n, (m.writeBytes off v n).read j =
      if off ≤ j ∧ j < off + n then some (v.extractLsb' (8 * (j - off)) 8) else m.read j
  | 0 => by simp [Memory.writeBytes]
  | n + 1 => by
    simp only [Memory.writeBytes]
    by_cases h : j = off + n
    · subst h
      rw [Memory_read_write_same, if_pos (by omega)]
      simp
    · rw [Memory_read_write_other _ _ h, Memory_read_writeBytes m off v j n]
      by_cases h' : off ≤ j ∧ j < off + n
      · rw [if_pos h', if_pos (by omega)]
      · rw [if_neg h', if_neg (by omega)]

end Sys2Proof.Machine
end

