-- ==== Sys2Proof/Laws/Ops.lean ====
section
/-! SUPPORT. One lemma for each shared operation: everything it can do. -/

namespace Sys2Proof.Machine

theorem acceptLane_of_full {s : State} (h : s.block.full = true) (op : OpTag) (regs : Packed) (imm : Imm) :
    s.acceptLane op regs imm = { s with block := s.block.markFault .capacityExceeded } := by
  simp [State.acceptLane, h]

theorem acceptLane_of_room {s : State} (h : s.block.full = false) (op : OpTag) (regs : Packed) (imm : Imm) :
    s.acceptLane op regs imm =
      { s with block := s.block.appendEntry (locOf s.block.s1.base s.lane) op regs imm, lane := s.lane + 1 } := by
  simp [State.acceptLane, h]

/-- An accepted lane appends one entry, or finds the columns full and sets the fault. -/
theorem acceptLane_cases (s : State) (op : OpTag) (regs : Packed) (imm : Imm) :
    (s.block.full = false ∧ s.acceptLane op regs imm =
      { s with block := s.block.appendEntry (locOf s.block.s1.base s.lane) op regs imm, lane := s.lane + 1 }) ∨
    (s.block.full = true ∧ s.acceptLane op regs imm = { s with block := s.block.markFault .capacityExceeded }) := by
  cases h : s.block.full
  · exact .inl ⟨rfl, acceptLane_of_room h op regs imm⟩
  · exact .inr ⟨rfl, acceptLane_of_full h op regs imm⟩

theorem acceptWriting_of_x0 (s : State) (op : OpTag) (regs : Packed) (imm : Imm) :
    s.acceptWriting 0#5 op regs imm = s.dropLane .x0Write := by
  simp [State.acceptWriting]

theorem acceptWriting_of_ne {rd : Reg} (h : rd ≠ 0#5) (s : State) (op : OpTag) (regs : Packed) (imm : Imm) :
    s.acceptWriting rd op regs imm = s.acceptLane op regs imm := by
  simp [State.acceptWriting, h]

/-- `full` in the terms of the parameter. -/
theorem full_eq_false_iff (b : Block) :
    b.full = false ↔ ∀ cap, b.params.outCap = some cap → b.cols.len < cap := by
  cases h : b.params.outCap <;> simp [Block.full, h]

/-- After a lane the call stops on the fault, ends after the last lane, or goes on. -/
theorem afterLane_cases (s : State) :
    (∃ f, s.block.fault = some f ∧
      s.afterLane = { s with busy := false, lane := 0, responses := s.responses ++ [.faulted f] }) ∨
    (s.block.fault = none ∧ s.lane < s.block.params.batchN ∧ s.afterLane = s) ∨
    (s.block.fault = none ∧ s.block.params.batchN ≤ s.lane ∧
      s.afterLane = { s with busy := false, lane := 0, responses := s.responses ++ [.done] }) := by
  cases hf : s.block.fault with
  | some f => exact .inl ⟨f, rfl, by simp [State.afterLane, hf, State.respond]⟩
  | none =>
    by_cases h : s.lane < s.block.params.batchN
    · exact .inr (.inl ⟨rfl, h, by simp [State.afterLane, hf, h]⟩)
    · exact .inr (.inr ⟨rfl, by omega, by simp [State.afterLane, hf, h, State.respond]⟩)

/-- `afterLane` never touches the block or the caller's queue. -/
@[simp] theorem State_afterLane_block (s : State) : s.afterLane.block = s.block := by
  unfold State.afterLane; split <;> [rfl; split <;> rfl]

@[simp] theorem State_afterLane_requests (s : State) : s.afterLane.requests = s.requests := by
  unfold State.afterLane; split <;> [rfl; split <;> rfl]

/-- The bounds rule as two comparisons of exact integers. -/
theorem inBounds_eq_true_iff (b : Block) (a : Nat) (w : Width) :
    b.inBounds a w = true ↔ b.dramBase.toNat ≤ a ∧ a - b.dramBase.toNat + w.bytes ≤ b.dramSize := by
  unfold Block.inBounds
  split <;> simp_all

/-- When `dram_load` gives no value. -/
theorem dramLoad_eq_none_iff (b : Block) (w : Width) (a : Nat) :
    b.dramLoad w a = none ↔ b.dramLive = false ∨ b.inBounds a w = false := by
  cases hl : b.dramLive <;> cases hb : b.inBounds a w <;> simp [Block.dramLoad, Block.load, hl, hb]

/-- The value `dram_load` gives. -/
theorem dramLoad_of_ok {b : Block} {w : Width} {a : Nat} (hl : b.dramLive = true) (hb : b.inBounds a w = true) :
    b.dramLoad w a = some (BitVec.ofNat 128 (b.sumBytes (a - b.dramBase.toNat) w.bytes)) := by
  simp [Block.dramLoad, Block.load, hl, hb]

/-- When a word of a batch cannot be fetched. -/
theorem fetchWord_eq_none_iff (b : Block) (base : Pc) (i : Nat) :
    b.fetchWord base i = none ↔ b.dramLive = false ∨ b.inBounds (base.toNat + 4 * i) .w32 = false := by
  rw [← dramLoad_eq_none_iff]
  unfold Block.fetchWord
  split <;> simp_all

/-- What a byte reads as after a store that is in bounds. -/
theorem byteAt_store {b c : Block} {w : Width} {a : Nat} {v : Value} (h : b.store w a v = some c) (off : Nat) :
    c.byteAt off =
      if a - b.dramBase.toNat ≤ off ∧ off < a - b.dramBase.toNat + w.bytes then
        v.extractLsb' (8 * (off - (a - b.dramBase.toNat))) 8
      else b.byteAt off := by
  unfold Block.store at h
  split at h
  · cases h
    simp only [Block.byteAt, Memory_read_writeBytes]
    by_cases hc : a - b.dramBase.toNat ≤ off ∧ off < a - b.dramBase.toNat + w.bytes
    · rw [if_pos hc, if_pos hc]
    · rw [if_neg hc, if_neg hc]
  · cases h

end Sys2Proof.Machine
end

