-- ==== Sys2Proof/Laws/Exec.lean ====
section
/-! SUPPORT. What a meaning can do: it answers a next state, in which its lane was dropped for `x0_write` or accepted. -/

namespace Sys2Proof.Machine

theorem acceptWriting_shape (s : State) (rd : Reg) (op : OpTag) (regs : Packed) (imm : Imm) :
    s.acceptWriting rd op regs imm = s.dropLane .x0Write ∨
      ∃ o r m, s.acceptWriting rd op regs imm = s.acceptLane o r m := by
  by_cases h : rd = 0#5
  · exact .inl (by rw [h, acceptWriting_of_x0])
  · exact .inr ⟨op, regs, imm, acceptWriting_of_ne h s op regs imm⟩

/-- Every meaning answers a next state: the lane dropped for `x0_write`, or accepted. -/
theorem exec_cases (i : Instr) (s : State) :
    ∃ t, exec i s = .next t ∧ (t = s.dropLane .x0Write ∨ ∃ o r m, t = s.acceptLane o r m) := by
  cases i <;> first
    | exact ⟨_, rfl, acceptWriting_shape s _ _ _ _⟩
    | exact ⟨_, rfl, .inr ⟨_, _, _, rfl⟩⟩

end Sys2Proof.Machine
end

