-- ==== Sys2Proof/Laws/PerInstr.lean ====
section
/-! SUPPORT. Per instruction: its word lies in its own row of the opcode table, and its opcode bits are those of its class. -/

namespace Sys2Proof.Laws

/-! ## What each format's encoder leaves under the opcode table's masks -/

theorem encodeR_mask (f7 : BitVec 7) (rs2 rs1 : Reg) (f3 : BitVec 3) (rd : Reg) (opc : BitVec 7) :
    encodeR f7 rs2 rs1 f3 rd opc &&& 0xFE00707F#32 = f7 ++ 0#10 ++ f3 ++ 0#5 ++ opc := by
  apply BitVec.eq_of_getLsbD_eq
  intro i hi
  simp only [encodeR, BitVec.getLsbD_and, BitVec.getLsbD_append]
  interval_cases i <;> simp

theorem encodeI_mask (imm : BitVec 12) (rs1 : Reg) (f3 : BitVec 3) (rd : Reg) (opc : BitVec 7) :
    encodeI imm rs1 f3 rd opc &&& 0x0000707F#32 = 0#17 ++ f3 ++ 0#5 ++ opc := by
  apply BitVec.eq_of_getLsbD_eq
  intro i hi
  simp only [encodeI, BitVec.getLsbD_and, BitVec.getLsbD_append]
  interval_cases i <;> simp

theorem encodeSys_mask (imm : BitVec 12) (rs1 : Reg) (f3 : BitVec 3) (rd : Reg) (opc : BitVec 7) :
    encodeI imm rs1 f3 rd opc &&& 0xFFF0707F#32 = imm ++ 0#5 ++ f3 ++ 0#5 ++ opc := by
  apply BitVec.eq_of_getLsbD_eq
  intro i hi
  simp only [encodeI, BitVec.getLsbD_and, BitVec.getLsbD_append]
  interval_cases i <;> simp

theorem encodeS_mask (imm : BitVec 12) (rs2 rs1 : Reg) (f3 : BitVec 3) (opc : BitVec 7) :
    encodeS imm rs2 rs1 f3 opc &&& 0x0000707F#32 = 0#17 ++ f3 ++ 0#5 ++ opc := by
  apply BitVec.eq_of_getLsbD_eq
  intro i hi
  simp only [encodeS, BitVec.getLsbD_and, BitVec.getLsbD_append]
  interval_cases i <;> simp

theorem encodeB_mask (off : BitVec 13) (rs2 rs1 : Reg) (f3 : BitVec 3) (opc : BitVec 7) :
    encodeB off rs2 rs1 f3 opc &&& 0x0000707F#32 = 0#17 ++ f3 ++ 0#5 ++ opc := by
  apply BitVec.eq_of_getLsbD_eq
  intro i hi
  simp only [encodeB, BitVec.getLsbD_and, BitVec.getLsbD_append]
  interval_cases i <;> simp

theorem encodeU_mask (imm20 : BitVec 20) (rd : Reg) (opc : BitVec 7) :
    encodeU imm20 rd opc &&& 0x0000007F#32 = 0#25 ++ opc := by
  apply BitVec.eq_of_getLsbD_eq
  intro i hi
  simp only [encodeU, BitVec.getLsbD_and, BitVec.getLsbD_append]
  interval_cases i <;> simp

theorem encodeJ_mask (off : BitVec 21) (rd : Reg) (opc : BitVec 7) :
    encodeJ off rd opc &&& 0x0000707F#32 = 0#17 ++ off.extractLsb' 12 3 ++ 0#5 ++ opc := by
  apply BitVec.eq_of_getLsbD_eq
  intro i hi
  simp only [encodeJ, BitVec.getLsbD_and, BitVec.getLsbD_append]
  interval_cases i <;> simp

/-! ## The word of each instruction lies in its row (R130) -/

/-- The encoding of a well-formed instruction matches the row of its own operation. -/
def RowMatch.Statement (i : Instr) : Prop :=
  i.wf = true → i.tag.matchesRow (encode i) = true

theorem RowMatch.add (rd rs1 rs2 : Reg) : RowMatch.Statement (.add rd rs1 rs2) :=
  fun _ => beq_iff_eq.mpr ((encodeR_mask ..).trans rfl)
theorem RowMatch.sub (rd rs1 rs2 : Reg) : RowMatch.Statement (.sub rd rs1 rs2) :=
  fun _ => beq_iff_eq.mpr ((encodeR_mask ..).trans rfl)
theorem RowMatch.xor (rd rs1 rs2 : Reg) : RowMatch.Statement (.xor rd rs1 rs2) :=
  fun _ => beq_iff_eq.mpr ((encodeR_mask ..).trans rfl)
theorem RowMatch.or (rd rs1 rs2 : Reg) : RowMatch.Statement (.or rd rs1 rs2) :=
  fun _ => beq_iff_eq.mpr ((encodeR_mask ..).trans rfl)
theorem RowMatch.and (rd rs1 rs2 : Reg) : RowMatch.Statement (.and rd rs1 rs2) :=
  fun _ => beq_iff_eq.mpr ((encodeR_mask ..).trans rfl)
theorem RowMatch.sll (rd rs1 rs2 : Reg) : RowMatch.Statement (.sll rd rs1 rs2) :=
  fun _ => beq_iff_eq.mpr ((encodeR_mask ..).trans rfl)
theorem RowMatch.srl (rd rs1 rs2 : Reg) : RowMatch.Statement (.srl rd rs1 rs2) :=
  fun _ => beq_iff_eq.mpr ((encodeR_mask ..).trans rfl)
theorem RowMatch.sra (rd rs1 rs2 : Reg) : RowMatch.Statement (.sra rd rs1 rs2) :=
  fun _ => beq_iff_eq.mpr ((encodeR_mask ..).trans rfl)
theorem RowMatch.slt (rd rs1 rs2 : Reg) : RowMatch.Statement (.slt rd rs1 rs2) :=
  fun _ => beq_iff_eq.mpr ((encodeR_mask ..).trans rfl)
theorem RowMatch.sltu (rd rs1 rs2 : Reg) : RowMatch.Statement (.sltu rd rs1 rs2) :=
  fun _ => beq_iff_eq.mpr ((encodeR_mask ..).trans rfl)
theorem RowMatch.addi (rd rs1 : Reg) (imm : BitVec 12) : RowMatch.Statement (.addi rd rs1 imm) :=
  fun _ => beq_iff_eq.mpr ((encodeI_mask ..).trans rfl)
theorem RowMatch.xori (rd rs1 : Reg) (imm : BitVec 12) : RowMatch.Statement (.xori rd rs1 imm) :=
  fun _ => beq_iff_eq.mpr ((encodeI_mask ..).trans rfl)
theorem RowMatch.ori (rd rs1 : Reg) (imm : BitVec 12) : RowMatch.Statement (.ori rd rs1 imm) :=
  fun _ => beq_iff_eq.mpr ((encodeI_mask ..).trans rfl)
theorem RowMatch.andi (rd rs1 : Reg) (imm : BitVec 12) : RowMatch.Statement (.andi rd rs1 imm) :=
  fun _ => beq_iff_eq.mpr ((encodeI_mask ..).trans rfl)
theorem RowMatch.slli (rd rs1 : Reg) (shamt : BitVec 5) : RowMatch.Statement (.slli rd rs1 shamt) :=
  fun _ => beq_iff_eq.mpr ((encodeR_mask ..).trans rfl)
theorem RowMatch.srli (rd rs1 : Reg) (shamt : BitVec 5) : RowMatch.Statement (.srli rd rs1 shamt) :=
  fun _ => beq_iff_eq.mpr ((encodeR_mask ..).trans rfl)
theorem RowMatch.srai (rd rs1 : Reg) (shamt : BitVec 5) : RowMatch.Statement (.srai rd rs1 shamt) :=
  fun _ => beq_iff_eq.mpr ((encodeR_mask ..).trans rfl)
theorem RowMatch.slti (rd rs1 : Reg) (imm : BitVec 12) : RowMatch.Statement (.slti rd rs1 imm) :=
  fun _ => beq_iff_eq.mpr ((encodeI_mask ..).trans rfl)
theorem RowMatch.sltiu (rd rs1 : Reg) (imm : BitVec 12) : RowMatch.Statement (.sltiu rd rs1 imm) :=
  fun _ => beq_iff_eq.mpr ((encodeI_mask ..).trans rfl)
theorem RowMatch.lb (rd rs1 : Reg) (imm : BitVec 12) : RowMatch.Statement (.lb rd rs1 imm) :=
  fun _ => beq_iff_eq.mpr ((encodeI_mask ..).trans rfl)
theorem RowMatch.lh (rd rs1 : Reg) (imm : BitVec 12) : RowMatch.Statement (.lh rd rs1 imm) :=
  fun _ => beq_iff_eq.mpr ((encodeI_mask ..).trans rfl)
theorem RowMatch.lw (rd rs1 : Reg) (imm : BitVec 12) : RowMatch.Statement (.lw rd rs1 imm) :=
  fun _ => beq_iff_eq.mpr ((encodeI_mask ..).trans rfl)
theorem RowMatch.lbu (rd rs1 : Reg) (imm : BitVec 12) : RowMatch.Statement (.lbu rd rs1 imm) :=
  fun _ => beq_iff_eq.mpr ((encodeI_mask ..).trans rfl)
theorem RowMatch.lhu (rd rs1 : Reg) (imm : BitVec 12) : RowMatch.Statement (.lhu rd rs1 imm) :=
  fun _ => beq_iff_eq.mpr ((encodeI_mask ..).trans rfl)
theorem RowMatch.sb (rs1 rs2 : Reg) (imm : BitVec 12) : RowMatch.Statement (.sb rs1 rs2 imm) :=
  fun _ => beq_iff_eq.mpr ((encodeS_mask ..).trans rfl)
theorem RowMatch.sh (rs1 rs2 : Reg) (imm : BitVec 12) : RowMatch.Statement (.sh rs1 rs2 imm) :=
  fun _ => beq_iff_eq.mpr ((encodeS_mask ..).trans rfl)
theorem RowMatch.sw (rs1 rs2 : Reg) (imm : BitVec 12) : RowMatch.Statement (.sw rs1 rs2 imm) :=
  fun _ => beq_iff_eq.mpr ((encodeS_mask ..).trans rfl)
theorem RowMatch.beq (rs1 rs2 : Reg) (off : BitVec 13) : RowMatch.Statement (.beq rs1 rs2 off) :=
  fun _ => beq_iff_eq.mpr ((encodeB_mask ..).trans rfl)
theorem RowMatch.bne (rs1 rs2 : Reg) (off : BitVec 13) : RowMatch.Statement (.bne rs1 rs2 off) :=
  fun _ => beq_iff_eq.mpr ((encodeB_mask ..).trans rfl)
theorem RowMatch.blt (rs1 rs2 : Reg) (off : BitVec 13) : RowMatch.Statement (.blt rs1 rs2 off) :=
  fun _ => beq_iff_eq.mpr ((encodeB_mask ..).trans rfl)
theorem RowMatch.bge (rs1 rs2 : Reg) (off : BitVec 13) : RowMatch.Statement (.bge rs1 rs2 off) :=
  fun _ => beq_iff_eq.mpr ((encodeB_mask ..).trans rfl)
theorem RowMatch.bltu (rs1 rs2 : Reg) (off : BitVec 13) : RowMatch.Statement (.bltu rs1 rs2 off) :=
  fun _ => beq_iff_eq.mpr ((encodeB_mask ..).trans rfl)
theorem RowMatch.bgeu (rs1 rs2 : Reg) (off : BitVec 13) : RowMatch.Statement (.bgeu rs1 rs2 off) :=
  fun _ => beq_iff_eq.mpr ((encodeB_mask ..).trans rfl)
theorem RowMatch.jal (rd : Reg) (off : BitVec 21) : RowMatch.Statement (.jal rd off) := by
  intro h
  have h3 : off.extractLsb' 12 3 = 0#3 := by
    simp only [Instr.wf, jalOffsetOk, Bool.and_eq_true, beq_iff_eq] at h
    exact h.2
  exact beq_iff_eq.mpr ((encodeJ_mask ..).trans (by rw [h3]; rfl))
theorem RowMatch.jalr (rd rs1 : Reg) (imm : BitVec 12) : RowMatch.Statement (.jalr rd rs1 imm) :=
  fun _ => beq_iff_eq.mpr ((encodeI_mask ..).trans rfl)
theorem RowMatch.lui (rd : Reg) (imm20 : BitVec 20) : RowMatch.Statement (.lui rd imm20) :=
  fun _ => beq_iff_eq.mpr ((encodeU_mask ..).trans rfl)
theorem RowMatch.auipc (rd : Reg) (imm20 : BitVec 20) : RowMatch.Statement (.auipc rd imm20) :=
  fun _ => beq_iff_eq.mpr ((encodeU_mask ..).trans rfl)
theorem RowMatch.ecall (rd rs1 : Reg) : RowMatch.Statement (.ecall rd rs1) :=
  fun _ => beq_iff_eq.mpr ((encodeSys_mask ..).trans rfl)
theorem RowMatch.ebreak (rd rs1 : Reg) : RowMatch.Statement (.ebreak rd rs1) :=
  fun _ => beq_iff_eq.mpr ((encodeSys_mask ..).trans rfl)

/-! ## The opcode bits of each instruction (R108) -/

/-- The ten opcodes by class, JAL, JALR, LUI and AUIPC each with its own (R108). -/
def opcodeOf (op : OpTag) : BitVec 7 :=
  match op.cls with
  | .rtype => opcOp
  | .ialu => opcOpImm
  | .load => opcLoad
  | .store => opcStore
  | .branch => opcBranch
  | .jumpReg => opcJalr
  | .jumpLink => opcJal
  | .upper => if op = .lui then opcLui else opcAuipc
  | .system => opcSystem

/-- The opcode bits survive encoding, well-formed or not. -/
def Opcode.Statement (i : Instr) : Prop :=
  (encode i).extractLsb' 0 7 = opcodeOf i.tag

theorem encodeR_opcode (f7 : BitVec 7) (rs2 rs1 : Reg) (f3 : BitVec 3) (rd : Reg) (opc : BitVec 7) :
    (encodeR f7 rs2 rs1 f3 rd opc).extractLsb' 0 7 = opc := by
  apply BitVec.eq_of_getLsbD_eq
  intro i hi
  simp only [encodeR, BitVec.getLsbD_extractLsb', BitVec.getLsbD_append]
  interval_cases i <;> simp

theorem encodeI_opcode (imm : BitVec 12) (rs1 : Reg) (f3 : BitVec 3) (rd : Reg) (opc : BitVec 7) :
    (encodeI imm rs1 f3 rd opc).extractLsb' 0 7 = opc := by
  apply BitVec.eq_of_getLsbD_eq
  intro i hi
  simp only [encodeI, BitVec.getLsbD_extractLsb', BitVec.getLsbD_append]
  interval_cases i <;> simp

theorem encodeS_opcode (imm : BitVec 12) (rs2 rs1 : Reg) (f3 : BitVec 3) (opc : BitVec 7) :
    (encodeS imm rs2 rs1 f3 opc).extractLsb' 0 7 = opc := by
  apply BitVec.eq_of_getLsbD_eq
  intro i hi
  simp only [encodeS, BitVec.getLsbD_extractLsb', BitVec.getLsbD_append]
  interval_cases i <;> simp

theorem encodeB_opcode (off : BitVec 13) (rs2 rs1 : Reg) (f3 : BitVec 3) (opc : BitVec 7) :
    (encodeB off rs2 rs1 f3 opc).extractLsb' 0 7 = opc := by
  apply BitVec.eq_of_getLsbD_eq
  intro i hi
  simp only [encodeB, BitVec.getLsbD_extractLsb', BitVec.getLsbD_append]
  interval_cases i <;> simp

theorem encodeU_opcode (imm20 : BitVec 20) (rd : Reg) (opc : BitVec 7) :
    (encodeU imm20 rd opc).extractLsb' 0 7 = opc := by
  apply BitVec.eq_of_getLsbD_eq
  intro i hi
  simp only [encodeU, BitVec.getLsbD_extractLsb', BitVec.getLsbD_append]
  interval_cases i <;> simp

theorem encodeJ_opcode (off : BitVec 21) (rd : Reg) (opc : BitVec 7) :
    (encodeJ off rd opc).extractLsb' 0 7 = opc := by
  apply BitVec.eq_of_getLsbD_eq
  intro i hi
  simp only [encodeJ, BitVec.getLsbD_extractLsb', BitVec.getLsbD_append]
  interval_cases i <;> simp

theorem Opcode.add (rd rs1 rs2 : Reg) : Opcode.Statement (.add rd rs1 rs2) := encodeR_opcode ..
theorem Opcode.sub (rd rs1 rs2 : Reg) : Opcode.Statement (.sub rd rs1 rs2) := encodeR_opcode ..
theorem Opcode.xor (rd rs1 rs2 : Reg) : Opcode.Statement (.xor rd rs1 rs2) := encodeR_opcode ..
theorem Opcode.or (rd rs1 rs2 : Reg) : Opcode.Statement (.or rd rs1 rs2) := encodeR_opcode ..
theorem Opcode.and (rd rs1 rs2 : Reg) : Opcode.Statement (.and rd rs1 rs2) := encodeR_opcode ..
theorem Opcode.sll (rd rs1 rs2 : Reg) : Opcode.Statement (.sll rd rs1 rs2) := encodeR_opcode ..
theorem Opcode.srl (rd rs1 rs2 : Reg) : Opcode.Statement (.srl rd rs1 rs2) := encodeR_opcode ..
theorem Opcode.sra (rd rs1 rs2 : Reg) : Opcode.Statement (.sra rd rs1 rs2) := encodeR_opcode ..
theorem Opcode.slt (rd rs1 rs2 : Reg) : Opcode.Statement (.slt rd rs1 rs2) := encodeR_opcode ..
theorem Opcode.sltu (rd rs1 rs2 : Reg) : Opcode.Statement (.sltu rd rs1 rs2) := encodeR_opcode ..
theorem Opcode.addi (rd rs1 : Reg) (imm : BitVec 12) : Opcode.Statement (.addi rd rs1 imm) := encodeI_opcode ..
theorem Opcode.xori (rd rs1 : Reg) (imm : BitVec 12) : Opcode.Statement (.xori rd rs1 imm) := encodeI_opcode ..
theorem Opcode.ori (rd rs1 : Reg) (imm : BitVec 12) : Opcode.Statement (.ori rd rs1 imm) := encodeI_opcode ..
theorem Opcode.andi (rd rs1 : Reg) (imm : BitVec 12) : Opcode.Statement (.andi rd rs1 imm) := encodeI_opcode ..
theorem Opcode.slli (rd rs1 : Reg) (shamt : BitVec 5) : Opcode.Statement (.slli rd rs1 shamt) := encodeR_opcode ..
theorem Opcode.srli (rd rs1 : Reg) (shamt : BitVec 5) : Opcode.Statement (.srli rd rs1 shamt) := encodeR_opcode ..
theorem Opcode.srai (rd rs1 : Reg) (shamt : BitVec 5) : Opcode.Statement (.srai rd rs1 shamt) := encodeR_opcode ..
theorem Opcode.slti (rd rs1 : Reg) (imm : BitVec 12) : Opcode.Statement (.slti rd rs1 imm) := encodeI_opcode ..
theorem Opcode.sltiu (rd rs1 : Reg) (imm : BitVec 12) : Opcode.Statement (.sltiu rd rs1 imm) := encodeI_opcode ..
theorem Opcode.lb (rd rs1 : Reg) (imm : BitVec 12) : Opcode.Statement (.lb rd rs1 imm) := encodeI_opcode ..
theorem Opcode.lh (rd rs1 : Reg) (imm : BitVec 12) : Opcode.Statement (.lh rd rs1 imm) := encodeI_opcode ..
theorem Opcode.lw (rd rs1 : Reg) (imm : BitVec 12) : Opcode.Statement (.lw rd rs1 imm) := encodeI_opcode ..
theorem Opcode.lbu (rd rs1 : Reg) (imm : BitVec 12) : Opcode.Statement (.lbu rd rs1 imm) := encodeI_opcode ..
theorem Opcode.lhu (rd rs1 : Reg) (imm : BitVec 12) : Opcode.Statement (.lhu rd rs1 imm) := encodeI_opcode ..
theorem Opcode.sb (rs1 rs2 : Reg) (imm : BitVec 12) : Opcode.Statement (.sb rs1 rs2 imm) := encodeS_opcode ..
theorem Opcode.sh (rs1 rs2 : Reg) (imm : BitVec 12) : Opcode.Statement (.sh rs1 rs2 imm) := encodeS_opcode ..
theorem Opcode.sw (rs1 rs2 : Reg) (imm : BitVec 12) : Opcode.Statement (.sw rs1 rs2 imm) := encodeS_opcode ..
theorem Opcode.beq (rs1 rs2 : Reg) (off : BitVec 13) : Opcode.Statement (.beq rs1 rs2 off) := encodeB_opcode ..
theorem Opcode.bne (rs1 rs2 : Reg) (off : BitVec 13) : Opcode.Statement (.bne rs1 rs2 off) := encodeB_opcode ..
theorem Opcode.blt (rs1 rs2 : Reg) (off : BitVec 13) : Opcode.Statement (.blt rs1 rs2 off) := encodeB_opcode ..
theorem Opcode.bge (rs1 rs2 : Reg) (off : BitVec 13) : Opcode.Statement (.bge rs1 rs2 off) := encodeB_opcode ..
theorem Opcode.bltu (rs1 rs2 : Reg) (off : BitVec 13) : Opcode.Statement (.bltu rs1 rs2 off) := encodeB_opcode ..
theorem Opcode.bgeu (rs1 rs2 : Reg) (off : BitVec 13) : Opcode.Statement (.bgeu rs1 rs2 off) := encodeB_opcode ..
theorem Opcode.jal (rd : Reg) (off : BitVec 21) : Opcode.Statement (.jal rd off) := encodeJ_opcode ..
theorem Opcode.jalr (rd rs1 : Reg) (imm : BitVec 12) : Opcode.Statement (.jalr rd rs1 imm) := encodeI_opcode ..
theorem Opcode.lui (rd : Reg) (imm20 : BitVec 20) : Opcode.Statement (.lui rd imm20) := encodeU_opcode ..
theorem Opcode.auipc (rd : Reg) (imm20 : BitVec 20) : Opcode.Statement (.auipc rd imm20) := encodeU_opcode ..
theorem Opcode.ecall (rd rs1 : Reg) : Opcode.Statement (.ecall rd rs1) := encodeI_opcode ..
theorem Opcode.ebreak (rd rs1 : Reg) : Opcode.Statement (.ebreak rd rs1) := encodeI_opcode ..

end Sys2Proof.Laws
end

