-- ==== Sys2Proof/Laws/Step.lean ====
section
/-! SUPPORT. What a step can do. -/

namespace Sys2Proof.Machine

/-! ## One column read alone -/

@[simp] theorem elementAt_loc (c : Columns) (k : Nat) : c.elementAt .loc k = c.loc[k]?.map .loc := rfl
@[simp] theorem elementAt_op (c : Columns) (k : Nat) : c.elementAt .op k = c.op[k]?.map .op := rfl
@[simp] theorem elementAt_regs (c : Columns) (k : Nat) : c.elementAt .regs k = c.regs[k]?.map .regs := rfl
@[simp] theorem elementAt_imm (c : Columns) (k : Nat) : c.elementAt .imm k = c.imm[k]?.map .imm := rfl

/-- The call has run past the bank and ends (log entry 24). -/
def State.endCall (s : State) : State :=
  { s with busy := false, lane := 0 }.respond .done

/-- A step of a call: the lane's instruction ran, the lane was dropped, or there was no lane. -/
theorem laneStep_cases {s t : State} (h : s.laneStep = .next t) :
    (∃ l i u, s.block.s1.lanes[s.lane]? = some l ∧ decodeLane l = .instr i ∧ exec i s = .next u ∧ t = u.afterLane) ∨
    (∃ l r, s.block.s1.lanes[s.lane]? = some l ∧ decodeLane l = .reject r ∧ t = (s.dropLane r).afterLane) ∨
    (s.block.s1.lanes[s.lane]? = none ∧ t = s.endCall) := by
  unfold State.laneStep at h
  split at h
  · next hl => cases h; exact .inr (.inr ⟨hl, rfl⟩)
  · next l hl =>
    split at h
    · next i hi =>
      obtain ⟨u, hu, -⟩ := exec_cases i s
      rw [hu] at h
      cases h
      exact .inl ⟨l, i, u, hl, hi, hu, rfl⟩
    · next r hr => cases h; exact .inr (.inl ⟨l, r, hl, hr, rfl⟩)
    · next ht => exact absurd ht (decodeLane_ne_truncated l)

/-- A step that answers a next state: nothing has faulted, and a lane was processed, nothing was asked, or the next
transaction began. -/
theorem step_cases {s t : State} (h : step s = .next t) :
    s.block.fault = none ∧
      ((s.busy = true ∧ s.laneStep = .next t) ∨
       (s.busy = false ∧ s.requests = [] ∧ t = s) ∨
       (∃ q rest, s.busy = false ∧ s.requests = q :: rest ∧ t = { s with requests := rest }.transact q)) := by
  unfold step at h
  split at h
  · cases h
  · next hf =>
    refine ⟨hf, ?_⟩
    split at h
    · next hb => exact .inl ⟨hb, h⟩
    · next hb =>
      have hb' : s.busy = false := by simpa using hb
      split at h
      · next hq => cases h; exact .inr (.inl ⟨hb', hq, rfl⟩)
      · next q rest hq => cases h; exact .inr (.inr ⟨q, rest, hb', hq, rfl⟩)

/-- No step refuses: every instruction is modelled, and the refusals of R347 are marks in the next state. -/
theorem step_ne_refused (s : State) (r : Refusal) : step s ≠ .refused r := by
  unfold step
  split
  · simp
  · split
    · unfold State.laneStep
      split
      · simp
      · split
        · next i _ =>
          obtain ⟨u, hu, -⟩ := exec_cases i s
          simp [hu, continueCall]
        · simp
        · simp
    · split <;> simp

end Sys2Proof.Machine
end

