-- ==== Sys2Proof/Tests/Slice0.lean ====
section
/-! SUPPORT. The model's own tests, their expected results taken from spec/95, and a witness for the hypotheses of each
statement. -/

namespace Sys2Proof.Tests

open Sys2Proof.Machine

/-! ## Helpers: small states, and the parts of an outcome that a test looks at -/

/-- Lane 0 of a call holds the word; lanes 1 to 3 hold the zero word. -/
def atWord (w : Nat) : State :=
  State.reset.withFetchWord 32 w

/-- Reset, with one transaction asked for. -/
def asks (q : Request) : State :=
  { State.reset with requests := [q] }

/-- The same on another block. -/
def asksOf (b : Block) (q : Request) : State :=
  { State.reset with block := b, requests := [q] }

/-- Reset's block with some bytes written. -/
def withMem (m : Memory) : Block :=
  { Block.reset with mem := m }

/-- Reset's block without a live DRAM region. -/
def noDram : Block :=
  { Block.reset with dramLive := false }

/-- Reset's block without a live Stage-2 object. -/
def noStage2 : Block :=
  { Block.reset with s2Live := false }

/-- A block whose bank holds a valid batch of these words at `base`, with columns of a given capacity. -/
def batchOf (cap : Option Nat) (base : Pc) (words : List Word) : Block :=
  { Block.reset with
    params := ⟨words.length, cap, true⟩
    s1 := ⟨true, base, words.map extract⟩ }

/-- One entry, `add x1, x2, x3` at the default base. -/
def oneEntry : Columns :=
  ⟨[0x80000000], [.add], [0x0443], [0]⟩

/-- A call stands at the word and the columns, which hold one entry, have capacity one. -/
def fullAt (w : Nat) : State :=
  let s := atWord w
  { s with block := { s.block with params := ⟨4, some 1, true⟩, cols := oneEntry } }

/-- A block whose one-word batch at the end of the region is written. -/
def oneWord : Block :=
  { batchOf none 0 [0] with mem := [(252, 0x73), (253, 0x00), (254, 0x10), (255, 0x00)] }

/-- The state a step answers. -/
def nextOf (o : Host.Outcome State Fault Refusal) : Option State :=
  match o with
  | .next t => some t
  | .fault _ => none
  | .refused _ => none

/-- What one step from `atWord w` adds: a column entry (op, regs, imm), or the reason of a record. -/
def laneOf (w : Nat) : Option ((OpTag × Packed × Imm) ⊕ Reason) :=
  match nextOf (step (atWord w)) with
  | none => none
  | some t =>
    match t.block.cols.op, t.block.cols.regs, t.block.cols.imm, t.block.diag with
    | [o], [r], [i], [] => some (.inl (o, r, i))
    | [], [], [], [d] => some (.inr d.reason)
    | _, _, _, _ => none

/-- Accepted with this entry. -/
def acc (o : OpTag) (r : Packed) (i : Int) : Option ((OpTag × Packed × Imm) ⊕ Reason) :=
  some (.inl (o, r, BitVec.ofInt 32 i))

/-- Dropped for this reason. -/
def rej (r : Reason) : Option ((OpTag × Packed × Imm) ⊕ Reason) :=
  some (.inr r)

/-- The answer of one step. -/
def answerOf (s : State) : Option Response :=
  match nextOf (step s) with
  | none => none
  | some t => t.responses.getLast?

/-- The written bytes after one step. -/
def memOf (s : State) : Option Memory :=
  match nextOf (step s) with
  | none => none
  | some t => some t.block.mem

/-- The refusal mark after one step. -/
def markOf (s : State) : Option RefusalReason :=
  match nextOf (step s) with
  | none => none
  | some t => t.block.refused

/-! ## WellFormed: an ill-formed term for each check -/

theorem test_wf_branch_odd_offset :
    (Instr.beq 1 2 1).wf = false ∧ (Instr.bne 1 2 0x1FFF).wf = false ∧ (Instr.blt 1 2 3).wf = false ∧
    (Instr.bge 1 2 5).wf = false ∧ (Instr.bltu 1 2 7).wf = false ∧ (Instr.bgeu 1 2 9).wf = false := by decide

theorem test_wf_jal_odd_offset : (Instr.jal 1 1).wf = false := by decide

theorem test_wf_jal_funct3_bits : (Instr.jal 1 0x1000).wf = false ∧ (Instr.jal 1 0x4000).wf = false := by decide

theorem test_wf_accepts :
    (Instr.beq 1 2 0x1000).wf = true ∧ (Instr.jal 1 0x8000).wf = true ∧ (Instr.jal 0 0).wf = true := by decide

/-! ## Decoding: the example word of every row of spec/opcode_table.json and spec/95 section 3 -/

theorem test_decode_rtype :
    decodeTableWord 32 0x003100B3 = some (.add 1 2 3) ∧ decodeTableWord 32 0x402081B3 = some (.sub 3 1 2) ∧
    decodeTableWord 32 0x007312B3 = some (.sll 5 6 7) ∧ decodeTableWord 32 0x00C5A533 = some (.slt 10 11 12) ∧
    decodeTableWord 32 0x00C5B533 = some (.sltu 10 11 12) ∧ decodeTableWord 32 0x01DF4FB3 = some (.xor 31 30 29) ∧
    decodeTableWord 32 0x003150B3 = some (.srl 1 2 3) ∧ decodeTableWord 32 0x403150B3 = some (.sra 1 2 3) ∧
    decodeTableWord 32 0x0062E233 = some (.or 4 5 6) ∧ decodeTableWord 32 0x0062F233 = some (.and 4 5 6) := by decide

theorem test_decode_itype_alu :
    decodeTableWord 32 0xFFF10093 = some (.addi 1 2 0xFFF) ∧ decodeTableWord 32 0x01F11093 = some (.slli 1 2 31) ∧
    decodeTableWord 32 0x80032293 = some (.slti 5 6 0x800) ∧ decodeTableWord 32 0x7FF33293 = some (.sltiu 5 6 0x7FF) ∧
    decodeTableWord 32 0xFFF44393 = some (.xori 7 8 0xFFF) ∧ decodeTableWord 32 0x00115093 = some (.srli 1 2 1) ∧
    decodeTableWord 32 0x40315093 = some (.srai 1 2 3) ∧ decodeTableWord 32 0x0F046393 = some (.ori 7 8 240) ∧
    decodeTableWord 32 0x7FF47393 = some (.andi 7 8 0x7FF) := by decide

theorem test_decode_loads :
    decodeTableWord 32 0xFFF30283 = some (.lb 5 6 0xFFF) ∧ decodeTableWord 32 0x00231283 = some (.lh 5 6 2) ∧
    decodeTableWord 32 0x00032283 = some (.lw 5 6 0) ∧ decodeTableWord 32 0x7FF34283 = some (.lbu 5 6 0x7FF) ∧
    decodeTableWord 32 0x80035283 = some (.lhu 5 6 0x800) := by decide

theorem test_decode_stores :
    decodeTableWord 32 0xFE740FA3 = some (.sb 8 7 0xFFF) ∧ decodeTableWord 32 0x00741123 = some (.sh 8 7 2) ∧
    decodeTableWord 32 0x00312423 = some (.sw 2 3 8) := by decide

theorem test_decode_branches :
    decodeTableWord 32 0x00208863 = some (.beq 1 2 16) ∧ decodeTableWord 32 0xFE009CE3 = some (.bne 1 0 0x1FF8) ∧
    decodeTableWord 32 0x8041C063 = some (.blt 3 4 0x1000) ∧ decodeTableWord 32 0x7E41DFE3 = some (.bge 3 4 0xFFE) ∧
    decodeTableWord 32 0x0062E0E3 = some (.bltu 5 6 0x800) ∧ decodeTableWord 32 0xFE62FFE3 = some (.bgeu 5 6 0x1FFE) := by
  decide

theorem test_decode_jumps_upper :
    decodeTableWord 32 0x001000EF = some (.jal 1 2048) ∧ decodeTableWord 32 0x800F80EF = some (.jal 1 0x1F8000) ∧
    decodeTableWord 32 0xFFF100E7 = some (.jalr 1 2 0xFFF) ∧ decodeTableWord 32 0x123450B7 = some (.lui 1 0x12345) ∧
    decodeTableWord 32 0xFFFFF117 = some (.auipc 2 0xFFFFF) := by decide

theorem test_decode_system :
    decodeTableWord 32 0x000100F3 = some (.ecall 1 2) ∧ decodeTableWord 32 0x001002F3 = some (.ebreak 5 0) := by decide

/-- Words that no row matches, with the neighbours a decoder most easily takes them for. -/
theorem test_decode_refuses :
    decode 0x023100B3 = .reject .funct7 ∧ decode 0x403110B3 = .reject .funct7 ∧ decode 0x41F11093 = .reject .shamtHigh ∧
    decode 0xC0315093 = .reject .shamtHigh ∧ decode 0x00033283 = .reject .funct3 ∧ decode 0x00743023 = .reject .funct3 ∧
    decode 0x0020A463 = .reject .funct3 ∧ decode 0x004110E7 = .reject .funct3 ∧ decode 0x000FF0EF = .reject .funct3 ∧
    decode 0x340110F3 = .reject .funct3 ∧ decode 0x30200073 = .reject .imm ∧ decode 0xFFF00073 = .reject .imm ∧
    decode 0x0FF0000F = .reject .opcode ∧ decode 0 = .reject .opcode ∧ decodeBytes [0x13, 0, 0] = .truncated := by decide

/-- The encoder on the same rows' words, one of each format. -/
theorem test_encode_formats :
    encode (.sub 3 1 2) = 0x402081B3 ∧ encode (.srai 1 2 3) = 0x40315093 ∧ encode (.lhu 5 6 0x800) = 0x80035283 ∧
    encode (.sb 8 7 0xFFF) = 0xFE740FA3 ∧ encode (.bge 3 4 0xFFE) = 0x7E41DFE3 ∧ encode (.jal 1 0x1F8000) = 0x800F80EF ∧
    encode (.lui 1 0x12345) = 0x123450B7 ∧ encode (.ebreak 5 0) = 0x001002F3 := by decide

/-- R32 with the spec's choice of codes: list order, no two alike. -/
theorem test_tag_codes : allTags.map tagCode = List.range 39 := by decide

/-- No word is of two rows: any two rows fix a common bit to different values. -/
theorem test_rows_do_not_overlap :
    allTags.Pairwise fun a b => a.mask &&& b.mask &&& (a.matchBits ^^^ b.matchBits) ≠ 0 := by decide

/-! ## One step of a call: what each word records (spec/95 section 3) -/

theorem test_step_rtype :
    [0x003100B3, 0x402081B3, 0x007312B3, 0x00C5A533, 0x00C5B533, 0x01DF4FB3, 0x003150B3, 0x403150B3, 0x0062E233,
      0x0062F233].map laneOf =
      [acc .add 0x0443 0, acc .sub 0x0C22 0, acc .sll 0x14C7 0, acc .slt 0x296C 0, acc .sltu 0x296C 0, acc .xor
        0x7FDD 0, acc .srl 0x0443 0, acc .sra 0x0443 0, acc .or 0x10A6 0, acc .and 0x10A6 0] := by decide

theorem test_step_itype_alu :
    [0xFFF10093, 0x01F11093, 0x80032293, 0x7FF33293, 0xFFF44393, 0x00115093, 0x40315093, 0x0F046393, 0x7FF47393].map
      laneOf =
      [acc .addi 0x0440 (-1), acc .slli 0x0440 31, acc .slti 0x14C0 (-2048), acc .sltiu 0x14C0 2047, acc .xori
        0x1D00 (-1), acc .srli 0x0440 1, acc .srai 0x0440 1027, acc .ori 0x1D00 240, acc .andi 0x1D00 2047] := by
        decide

theorem test_step_loads :
    [0xFFF30283, 0x00231283, 0x00032283, 0x7FF34283, 0x80035283].map laneOf =
      [acc .lb 0x14C0 (-1), acc .lh 0x14C0 2, acc .lw 0x14C0 0, acc .lbu 0x14C0 2047, acc .lhu 0x14C0 (-2048)] := by
        decide

theorem test_step_stores :
    [0xFE740FA3, 0x00741123, 0x00312423].map laneOf =
      [acc .sb 0x0107 (-1), acc .sh 0x0107 2, acc .sw 0x0043 8] := by decide

theorem test_step_branches :
    [0x00208863, 0xFE009CE3, 0x8041C063, 0x7E41DFE3, 0x0062E0E3, 0xFE62FFE3].map laneOf =
      [acc .beq 0x0022 16, acc .bne 0x0020 (-8), acc .blt 0x0064 (-4096), acc .bge 0x0064 4094, acc .bltu 0x00A6
        2048, acc .bgeu 0x00A6 (-2)] := by decide

theorem test_step_jumps_upper :
    [0x800F80EF, 0xFFF100E7, 0x123450B7, 0xFFFFF117].map laneOf =
      [acc .jal 0x0400 (-32768), acc .jalr 0x0440 (-1), acc .lui 0x0400 305418240, acc .auipc 0x0800 (-4096)] := by
        decide

theorem test_step_system :
    [0x000100F3, 0x001002F3].map laneOf =
      [acc .ecall 0x0000 0, acc .ebreak 0x0000 1] := by decide

/-- The x0-write rule, class by class, and the priority of R184. -/
theorem test_step_drops :
    [0x00108033, 0x00000013, 0x00030003, 0x00008067, 0x0000006F, 0x00001037, 0x02310033, 0x00033003, 0x0000106F,
      0x30201073, 0x0000007F].map laneOf =
      [rej .x0Write, rej .x0Write, rej .x0Write, rej .x0Write, rej .x0Write, rej .x0Write, rej .funct7, rej .funct3,
        rej .funct3, rej .funct3, rej .opcode] := by decide

/-- The record of a dropped lane (R191). -/
theorem test_step_record :
    (nextOf (step (atWord 0x0FF0000F))).map (·.block.diag) = some [⟨0x0FF0000F, 0, 0x0F, .opcode⟩] := by decide

/-- Spec/95 section 6, OUT_CAP = 0 with P2's batch: at full columns a rejected lane is dropped all the same. -/
theorem test_step_drops_at_full_columns :
    [0x0FF0000F, 0x023100B3, 0x41F11093, 0x00033283, 0x30200073, 0x00008067].map (fun w =>
      (nextOf (step (fullAt w))).map fun t => (t.block.fault, t.lane, t.block.diag.map (·.reason))) =
      [some (none, 1, [.opcode]), some (none, 1, [.funct7]), some (none, 1, [.shamtHigh]), some (none, 1, [.funct3]),
        some (none, 1, [.imm]), some (none, 1, [.x0Write])] := by decide

/-! ## A whole call (spec/95 scenario 7 and section 6) -/

/-- Scenario 7's batch. -/
def mixed : List Word := [0x003100B3, 0x0000007F, 0xFFF10093, 0x00418033]

theorem test_call_mixed_batch :
    (batchOf none 0x80000000 mixed).packAll.cols =
      ⟨[0x80000000, 0x80000008], [.add, .addi], [0x0443, 0x0440], [0, 0xFFFFFFFF]⟩ ∧
    (batchOf none 0x80000000 mixed).packAll.diag = [⟨0x0000007F, 1, 0x7F, .opcode⟩, ⟨0x00418033, 3, 0x33, .x0Write⟩] := by
  decide

/-- P1's batch. -/
def countDown : List Word :=
  [0x00500093, 0x00000113, 0x00110133, 0xFFF08093, 0xFE009CE3, 0x04202023, 0x0000006F, 0x00100073]

theorem test_call_capacity_two :
    (batchOf (some 2) 0x80000000 countDown).packAll.cols.len = 2 ∧
    (batchOf (some 2) 0x80000000 countDown).packAll.diag = [] ∧
    (batchOf (some 2) 0x80000000 countDown).packAll.fault = some .capacityExceeded := by decide

theorem test_call_capacity_exact :
    (batchOf (some 7) 0x80000000 countDown).packAll.cols.len = 7 ∧
    (batchOf (some 7) 0x80000000 countDown).packAll.fault = none := by decide

theorem test_fault_stops : nextOf (step { asks .s2Len with block := { Block.reset with fault := some .capacityExceeded } }) = none := by
  decide

/-! ## Stage-1 and DRAM (spec/95 sections 2, 4, 6) -/

theorem test_extract_all_ones :
    extract 0xFFFFFFFF = ⟨0x7F, 31, 7, 31, 31, 0x7F, 0xFFFFFFFF, 0xFFFFFFFF, 0xFFFFFFFE, 0xFFFFF000, 0xFFFFFFFE⟩ := by decide

theorem test_extract_store :
    (extract 0xFE112E23).immI.toInt = -31 ∧ (extract 0xFE112E23).immS.toInt = -4 ∧ (extract 0xFE112E23).immB.toInt = -2052 ∧
    (extract 0xFE112E23).immU.toInt = -32432128 ∧ (extract 0xFE112E23).immJ.toInt = -970784 := by decide

theorem test_misaligned_base :
    answerOf (asks (.s1Decode 0x80000002 mixed)) = some (.boundaryError .misalignedBase) ∧
    answerOf (asks (.s1Decode 0xFFFFFFFC mixed)) = some .done := by decide

theorem test_store_is_little_endian :
    memOf (asks (.dramStore .w32 0x80000000 0x0A0B0C0D)) = some [(0, 0x0D), (1, 0x0C), (2, 0x0B), (3, 0x0A)] := by decide

theorem test_load_unaligned :
    answerOf (asksOf (withMem [(0, 0x0D), (1, 0x0C), (2, 0x0B), (3, 0x0A)]) (.dramLoad .w16 0x80000001)) =
      some (.value 0x0B0C) := by decide

theorem test_bounds :
    answerOf (asks (.dramLoad .w64 0x800000FD)) = some (.boundaryError .outOfBounds) ∧
    answerOf (asks (.dramLoad .w128 0x800000FC)) = some (.boundaryError .outOfBounds) ∧
    memOf (asks (.dramStore .w32 0x800000FE 0xFFFFFFFF)) = some [] ∧
    answerOf (asks (.dramLoad .w8 0x7FFFFFFF)) = some (.boundaryError .outOfBounds) ∧
    answerOf (asks (.dramLoad .w8 0)) = some (.boundaryError .outOfBounds) := by decide

/-- Spec/95 P5: a batch that runs off the end of DRAM; and R387, the fetch needs a live region. -/
theorem test_fetch :
    oneWord.fetchBatch 0x800000FC = some [0x00100073] ∧ oneWord.fetchBatch 0x80000100 = none ∧
    ({ oneWord with dramLive := false } : Block).fetchBatch 0x800000FC = none := by decide

theorem test_store_keeps_canonical_form :
    (Memory.write [(0, 1), (4, 2)] 2 9) = [(0, 1), (2, 9), (4, 2)] ∧ (Memory.write [(0, 1), (4, 2)] 4 9) = [(0, 1), (4, 9)] := by
  decide

theorem test_refusals :
    markOf (asks .validateAndPack) = some .noStage1Batch ∧ markOf (asks .s2New) = some .alreadyLive ∧
    markOf (asks (.s2Read 0)) = some .indexOutOfRange ∧ markOf (asksOf noStage2 .s2Len) = some .useAfterDestroy ∧
    markOf (asks (.dramInit 16 (some 0))) = some .alreadyLive ∧
    markOf (asksOf noDram (.dramLoad .w8 0x80000000)) = some .useAfterDestroy ∧
    markOf (asksOf noDram (.dramInit (2 ^ 64 - 0x80000000 + 1) none)) = some .initOverflow ∧
    answerOf (asksOf noDram (.dramInit (2 ^ 64 - 0x80000000) none)) = some .done := by decide

theorem test_scalar_decode :
    answerOf (asks (.decodeOne 0x003100B3)) = some (.decoded .add 0x0443 0) ∧
    answerOf (asks (.decodeOne 0x0000007F)) = some (.rejected .unknownOpcode) ∧
    answerOf (asks (.decodeOne 0x00033283)) = some (.rejected .unknownFunct3) ∧
    answerOf (asks (.decodeOne 0x023100B3)) = some (.rejected .unknownFunct7) ∧
    answerOf (asks (.decodeOne 0x41F11093)) = some (.rejected .unknownShamtHigh) ∧
    answerOf (asks (.decodeOne 0x30200073)) = some (.rejected .unknownImmediate) ∧
    answerOf (asks (.decodeOne 0x00000013)) = some (.rejected .writesToX0) := by decide

theorem test_pack : packRegs 31 31 31 = 0x7FFF ∧ packRegs 1 0 31 = 0x041F ∧ getRd 0x041F = 1 ∧ getRs2 0x041F = 31 := by decide

/-! ## Witnesses: for each statement with hypotheses, a concrete case of each of its clauses -/

theorem atWord_holds (w : Nat) : (atWord w).AtWord (tableWord 32 w) := ⟨rfl, rfl, rfl⟩

theorem asks_holds (q : Request) : (asks q).Asks q [] := ⟨rfl, rfl, rfl⟩

theorem asksOf_noDram (q : Request) : (asksOf noDram q).Asks q [] := ⟨rfl, rfl, rfl⟩

theorem asksOf_noStage2 (q : Request) : (asksOf noStage2 q).Asks q [] := ⟨rfl, rfl, rfl⟩

theorem reset_hasRoom : State.reset.block.hasRoom := fun _ h => nomatch h

theorem atWord_hasRoom (w : Nat) : (atWord w).block.hasRoom := fun _ h => nomatch h

/-- Room at its boundary: one entry of two. -/
theorem two_hasRoom : ({ batchOf (some 2) 0x80000000 mixed with cols := oneEntry } : Block).hasRoom := by
  intro cap h
  cases h
  decide

theorem full_hasNoRoom (w : Nat) : ¬(fullAt w).block.hasRoom := fun h => Nat.lt_irrefl 1 (h 1 rfl)

theorem witness_DecodeOfEncodeIsTheInstruction :
    (Instr.jal 31 0x1F8FFE).wf = true ∧ (Instr.bgeu 31 31 0x1FFE).wf = true ∧ (Instr.srai 1 2 31).wf = true := by decide

theorem witness_EncodeOfDecodeIsTheWord : decode 0x800F80EF = .instr (.jal 1 0x1F8000) := by decide

theorem witness_ClassifyAcceptsExactlyTheTable :
    classify (extract 0x003100B3) = .accept .add .rtype ∧ OpTag.add.matchesRow 0x00108033 = true ∧
    classify (extract 0x00108033) = .reject .x0Write := by decide

theorem witness_DecoderAgreesWithClassify :
    decodeLane (extract 0x00108033) = .instr (.add 0 1 1) ∧ decodeLane (extract 0x0000007F) = .reject .opcode := by decide

theorem witness_RejectionReasonIsTheFirstFailedTest :
    classify (extract 0x0000007F) = .reject .opcode ∧ classify (extract 0x0000106F) = .reject .funct3 ∧
    classify (extract 0x02310033) = .reject .funct7 ∧ classify (extract 0xC0315093) = .reject .shamtHigh ∧
    classify (extract 0x00200073) = .reject .imm ∧ classify (extract 0x00000013) = .reject .x0Write := by decide

theorem witness_ImmediateIIsSignExtended :
    (0x80032293 : Word).extractLsb' 20 12 = 0x800#12 ∧ (0x7FF33293 : Word).extractLsb' 20 12 = 0x7FF#12 := by decide

theorem witness_Stage1DecodeFillsTheBankOrNone :
    (asks (.s1Decode 0xFFFFFFFC mixed)).Asks (.s1Decode 0xFFFFFFFC mixed) [] ∧ mixed.length = 4 ∧
    (0xFFFFFFFC : Pc).toNat % 4 = 0 ∧ (0x80000001 : Pc).toNat % 4 ≠ 0 ∧ (0x80000003 : Pc).toNat % 4 ≠ 0 :=
  ⟨asks_holds _, by decide⟩

theorem witness_BoundsRuleInBothForms :
    Block.reset.inBounds 0x800000F0 .w128 = true ∧ Block.reset.inBounds 0x800000F1 .w128 = false ∧
    Block.reset.inBounds 0x7FFFFFFF .w8 = false := by decide

theorem witness_LoadAnswersTheLittleEndianSum :
    (asksOf noDram (.dramLoad .w8 0x80000000)).Asks (.dramLoad .w8 0x80000000) [] ∧ noDram.dramLive = false ∧
    (asks (.dramLoad .w64 0x800000F9)).Asks (.dramLoad .w64 0x800000F9) [] ∧ Block.reset.dramLive = true ∧
    Block.reset.inBounds 0x800000F9 .w64 = false ∧ Block.reset.inBounds 0x800000F8 .w64 = true :=
  ⟨asksOf_noDram _, rfl, asks_holds _, by decide⟩

theorem witness_StoreWritesExactlyItsBytes :
    (asksOf noDram (.dramStore .w8 0x80000000 1)).Asks (.dramStore .w8 0x80000000 1) [] ∧ noDram.dramLive = false ∧
    (asks (.dramStore .w32 0x800000FD 1)).Asks (.dramStore .w32 0x800000FD 1) [] ∧
    Block.reset.inBounds 0x800000FD .w32 = false ∧ Block.reset.inBounds 0x800000FC .w32 = true ∧
    Block.reset.covers 0x800000FC .w32 0xFB = false ∧ Block.reset.covers 0x800000FC .w32 0xFF = true :=
  ⟨asksOf_noDram _, rfl, asks_holds _, by decide⟩

theorem witness_AccessesHaveNoAlignmentRule :
    (asks (.dramLoad .w128 0x800000EF)).Asks (.dramLoad .w128 0x800000EF) [] ∧
    (asks (.dramStore .w128 0x800000EF 7)).Asks (.dramStore .w128 0x800000EF 7) [] ∧
    (0x800000EF : Addr).toNat % Width.w128.bytes = 15 ∧ Block.reset.inBounds 0x800000EF .w128 = true :=
  ⟨asks_holds _, asks_holds _, by decide⟩

theorem witness_LoadAfterStoreAnswersTheValue :
    ({ State.reset with requests := [.dramStore .w64 0x800000F8 5, .dramLoad .w64 0x800000F8] } : State).Asks
      (.dramStore .w64 0x800000F8 5) (.dramLoad .w64 0x800000F8 :: []) ∧
    Block.reset.dramLive = true ∧ Block.reset.inBounds 0x800000F8 .w64 = true :=
  ⟨⟨rfl, rfl, rfl⟩, by decide⟩

/-- Two overlapping stores. -/
def overlapping : List (Width × Addr × Value) :=
  [(.w32, 0x80000000, 0x0A0B0C0D), (.w16, 0x80000003, 0x1122)]

theorem witness_LatestStoreToAByteWins :
    Block.reset.mem = [] ∧ (∀ x ∈ overlapping, Block.reset.inBounds x.2.1.toNat x.1 = true) ∧
    overlapping.reverse.find? (fun x => Block.reset.covers x.2.1 x.1 3) = some (.w16, 0x80000003, 0x1122) ∧
    overlapping.reverse.find? (fun x => Block.reset.covers x.2.1 x.1 5) = none := by decide

/-- Each clause: a batch, none past the end, none in a dead region; and the load of a word in each of the three cases. -/
theorem witness_FetchFollowsTheConvention :
    oneWord.fetchBatch 0x800000FC = some [0x00100073] ∧ oneWord.inBounds 0x80000100 .w32 = false ∧
    ({ oneWord with dramLive := false } : Block).dramLive = false ∧ 0 < oneWord.params.batchN ∧
    (asksOf oneWord (.dramLoad .w32 0x800000FC)).Asks (.dramLoad .w32 0x800000FC) [] ∧
    oneWord.fetchWord 0x800000FC 0 = some 0x00100073 ∧
    (asksOf oneWord (.dramLoad .w32 0x80000100)).Asks (.dramLoad .w32 0x80000100) [] ∧
    oneWord.fetchWord 0x800000FC 1 = none ∧ oneWord.dramLive = true ∧
    (asksOf { oneWord with dramLive := false } (.dramLoad .w32 0x800000FC)).Asks (.dramLoad .w32 0x800000FC) [] ∧
    ({ oneWord with dramLive := false } : Block).fetchWord 0x800000FC 0 = none ∧
    (0x800000FC : Addr) = BitVec.ofNat 64 ((0x800000FC : Pc).toNat + 4 * 0) ∧
    (0x80000100 : Addr) = BitVec.ofNat 64 ((0x800000FC : Pc).toNat + 4 * 1) :=
  ⟨by decide, by decide, rfl, by decide, ⟨rfl, rfl, rfl⟩, by decide, ⟨rfl, rfl, rfl⟩, by decide, rfl, ⟨rfl, rfl, rfl⟩,
    by decide, by decide, by decide⟩

theorem witness_DramLifecycle :
    (asks (.dramInit 16 none)).Asks (.dramInit 16 none) [] ∧ Block.reset.dramLive = true ∧
    (asksOf noDram (.dramInit 17 (some 0xFFFFFFFFFFFFFFF0))).Asks (.dramInit 17 (some 0xFFFFFFFFFFFFFFF0)) [] ∧
    noDram.dramLive = false ∧ 2 ^ 64 < (0xFFFFFFFFFFFFFFF0 : Addr).toNat + 17 ∧
    (0xFFFFFFFFFFFFFFF0 : Addr).toNat + 16 ≤ 2 ^ 64 ∧ (asks .dramDestroy).Asks .dramDestroy [] ∧
    (asksOf noDram .dramDestroy).Asks .dramDestroy [] :=
  ⟨asks_holds _, rfl, asksOf_noDram _, rfl, by decide, by decide, asks_holds _, asksOf_noDram _⟩

theorem witness_DramTransactionsLeaveTheDecoderAlone :
    (asks .dramDestroy).Asks .dramDestroy [] ∧ Request.dramDestroy.isDram = true ∧
    (∃ t, step (asks .dramDestroy) = .next t) :=
  ⟨asks_holds _, rfl, _, rfl⟩

theorem witness_DecodingNeverTouchesDram :
    (atWord 0x003100B3).busy = true ∧ (∃ t, step (atWord 0x003100B3) = .next t) ∧
    (∀ q rest, (asks .s2Clear).requests = q :: rest → q.isDram = false) ∧ (∃ t, step (asks .s2Clear) = .next t) := by
  refine ⟨rfl, ⟨_, rfl⟩, ?_, _, rfl⟩
  intro q rest h
  cases h
  rfl

theorem witness_RTypeRecordsItsEntry : (31#5 ≠ 0#5) ∧ State.reset.block.hasRoom := ⟨by decide, reset_hasRoom⟩

theorem witness_OpImmRecordsItsEntry :
    (1#5 ≠ 0#5) ∧ ({ batchOf (some 2) 0x80000000 mixed with cols := oneEntry } : Block).hasRoom :=
  ⟨by decide, two_hasRoom⟩

theorem witness_LoadsRecordTheirEntry : (1#5 ≠ 0#5) ∧ State.reset.block.hasRoom := ⟨by decide, reset_hasRoom⟩

theorem witness_StoresAndBranchesRecordTheirEntry : State.reset.block.hasRoom := reset_hasRoom

theorem witness_JumpsAndUpperRecordTheirEntry : (16#5 ≠ 0#5) ∧ State.reset.block.hasRoom := ⟨by decide, reset_hasRoom⟩

theorem witness_SystemRecordsItsEntry : State.reset.block.hasRoom := reset_hasRoom

theorem witness_WritingToX0DropsTheLane :
    (atWord 0x00008067).block.s1.lanes[(atWord 0x00008067).lane]? = some (extract 0x00008067) ∧
    decodeLane (extract 0x00008067) = .instr (.jalr 0 1 0) ∧ (extract 0x00008067).rd = 0#5 ∧
    (Instr.jalr 0 1 0).tag.cls.writesRd = true := by decide

theorem witness_FullColumnsFaultOnAcceptance :
    ¬(fullAt 0x00000073).block.hasRoom ∧ decodeLane (extract 0x00000073) = .instr (.ecall 0 0) ∧
    (Instr.ecall 0 0).tag.cls.writesRd = false ∧
    decodeLane (extract 0x003100B3) = .instr (.add 1 2 3) ∧ (extract 0x003100B3).rd ≠ 0#5 :=
  ⟨full_hasNoRoom _, by decide⟩

theorem witness_StepRunsTheDecodedInstruction :
    (atWord 0x003100B3).AtWord 0x003100B3 ∧ decode 0x003100B3 = .instr (.add 1 2 3) ∧
    (∃ t, exec (.add 1 2 3) (atWord 0x003100B3) = .next t) ∧ wordOfBytes 0xB3 0x00 0x31 0x00 = 0x003100B3 ∧
    decodeBytes [0xB3, 0x00, 0x31, 0x00] = .instr (.add 1 2 3) ∧ State.reset.block.fault = none ∧
    decodeTableWord 32 0x003100B3 = some (.add 1 2 3) :=
  ⟨atWord_holds 0x003100B3, by decide, ⟨_, rfl⟩, by decide, by decide, rfl, by decide⟩

theorem witness_CallGoesOnUntilTheLastLane :
    ({ State.reset with block := Block.reset.markFault .capacityExceeded } : State).block.fault = some .capacityExceeded ∧
    ({ State.reset with lane := 3 } : State).lane < State.reset.block.params.batchN ∧
    State.reset.block.params.batchN ≤ ({ State.reset with lane := 4 } : State).lane := by decide

/-- A lane stands at full columns: what the drop clauses of the lane statements allow. -/
theorem fullAt_holds (w : Nat) : (fullAt w).AtWord (tableWord 32 w) := ⟨rfl, rfl, rfl⟩

/-- FENCE, FENCE.I, a custom word and a compressed one, with room and at full columns. -/
theorem witness_UnknownOpcodeLaneIsDropped :
    (∀ w, (atWord w).AtWord (tableWord 32 w) ∧ (fullAt w).AtWord (tableWord 32 w)) ∧
    [0x0FF0000F, 0x0000100F, 0x0000008B, 0x00000001, 0xFFFFFFFF].map (fun w => (tableWord 32 w).extractLsb' 0 7) =
      [0x0F#7, 0x0F#7, 0x0B#7, 0x01#7, 0x7F#7] :=
  ⟨fun w => ⟨atWord_holds w, fullAt_holds w⟩, by decide⟩

theorem witness_OpLaneFollowsTheFunctMap :
    (atWord 0x403150B3).AtWord 0x403150B3 ∧ (atWord 0x403150B3).block.hasRoom ∧
    (0x403150B3 : Word).extractLsb' 0 7 = 0x33#7 ∧ (0x403150B3 : Word).extractLsb' 7 5 ≠ 0#5 ∧
    (atWord 0x00108033).AtWord 0x00108033 ∧ (0x00108033 : Word).extractLsb' 7 5 = 0#5 ∧
    (atWord 0xFE3150B3).AtWord 0xFE3150B3 ∧ (0xFE3150B3 : Word).extractLsb' 25 7 = 0x7F#7 :=
  ⟨atWord_holds 0x403150B3, atWord_hasRoom _, by decide, by decide, atWord_holds 0x00108033, by decide,
    atWord_holds 0xFE3150B3, by decide⟩

theorem witness_OpImmLaneFollowsFunct3 :
    (atWord 0x7FF47393).AtWord 0x7FF47393 ∧ (atWord 0x7FF47393).block.hasRoom ∧
    (0x7FF47393 : Word).extractLsb' 12 3 = 7#3 ∧ (0x7FF47393 : Word).extractLsb' 7 5 ≠ 0#5 ∧
    (atWord 0x40315093).AtWord 0x40315093 ∧ (0x40315093 : Word).extractLsb' 25 7 = 0x20#7 ∧
    (atWord 0x00000013).AtWord 0x00000013 ∧ (0x00000013 : Word).extractLsb' 7 5 = 0#5 ∧
    (atWord 0x02011093).AtWord 0x02011093 ∧ (0x02011093 : Word).extractLsb' 25 7 = 0x01#7 :=
  ⟨atWord_holds 0x7FF47393, atWord_hasRoom _, by decide, by decide, atWord_holds 0x40315093, by decide,
    atWord_holds 0x00000013, by decide, atWord_holds 0x02011093, by decide⟩

theorem witness_LoadLaneFollowsFunct3 :
    (atWord 0x80035283).AtWord 0x80035283 ∧ (atWord 0x80035283).block.hasRoom ∧
    (0x80035283 : Word).extractLsb' 12 3 = 5#3 ∧ (0x80035283 : Word).extractLsb' 7 5 ≠ 0#5 ∧
    (atWord 0x00030003).AtWord 0x00030003 ∧ (0x00030003 : Word).extractLsb' 7 5 = 0#5 ∧
    (atWord 0x00037283).AtWord 0x00037283 ∧ (0x00037283 : Word).extractLsb' 12 3 = 7#3 :=
  ⟨atWord_holds 0x80035283, atWord_hasRoom _, by decide, by decide, atWord_holds 0x00030003, by decide,
    atWord_holds 0x00037283, by decide⟩

theorem witness_StoreLaneFollowsFunct3 :
    (atWord 0x00312423).AtWord 0x00312423 ∧ (atWord 0x00312423).block.hasRoom ∧
    (0x00312423 : Word).extractLsb' 12 3 = 2#3 ∧ (atWord 0x00743023).AtWord 0x00743023 ∧
    (0x00743023 : Word).extractLsb' 12 3 = 3#3 :=
  ⟨atWord_holds 0x00312423, atWord_hasRoom _, by decide, atWord_holds 0x00743023, by decide⟩

theorem witness_BranchLaneFollowsFunct3 :
    (atWord 0x00208863).AtWord 0x00208863 ∧ (atWord 0x00208863).block.hasRoom ∧
    (0x00208863 : Word).extractLsb' 12 3 = 0#3 ∧ (atWord 0xFE62FFE3).AtWord 0xFE62FFE3 ∧
    (0xFE62FFE3 : Word).extractLsb' 12 3 = 7#3 ∧ (atWord 0x0020A463).AtWord 0x0020A463 ∧
    (0x0020A463 : Word).extractLsb' 12 3 = 2#3 :=
  ⟨atWord_holds 0x00208863, atWord_hasRoom _, by decide, atWord_holds 0xFE62FFE3, by decide, atWord_holds 0x0020A463,
    by decide⟩

/-- One word for each of the seven clauses, in their order, and one more for each opcode that shares a clause. -/
theorem witness_JumpAndUpperLanesFollowTheirOpcode :
    (∀ w, (atWord w).AtWord (tableWord 32 w) ∧ (atWord w).block.hasRoom) ∧
    [0x004110E7, 0x000FF0EF, 0x00008067, 0x0000006F, 0x00001037, 0x00000017, 0x000280E7, 0x001000EF, 0x123450B7,
      0xFFFFF117].map (fun w => ((tableWord 32 w).extractLsb' 0 7, (tableWord 32 w).extractLsb' 12 3 == 0#3,
        (tableWord 32 w).extractLsb' 7 5 == 0#5)) =
      [(0x67#7, false, false), (0x6F#7, false, false), (0x67#7, true, true), (0x6F#7, true, true), (0x37#7, false, true),
        (0x17#7, true, true), (0x67#7, true, false), (0x6F#7, true, false), (0x37#7, false, false),
        (0x17#7, false, false)] :=
  ⟨fun w => ⟨atWord_holds w, atWord_hasRoom w⟩, by decide⟩

theorem witness_SystemLaneFollowsFunct3AndImmediate :
    (∀ w, (atWord w).AtWord (tableWord 32 w) ∧ (atWord w).block.hasRoom) ∧
    [0x00001073, 0x000100F3, 0x001002F3, 0x00200073, 0xFFF00073].map (fun w => ((tableWord 32 w).extractLsb' 0 7,
      (tableWord 32 w).extractLsb' 12 3 == 0#3, immI (tableWord 32 w))) =
      [(0x73#7, false, 0#32), (0x73#7, true, 0#32), (0x73#7, true, 1#32), (0x73#7, true, 2#32),
        (0x73#7, true, 0xFFFFFFFF#32)] :=
  ⟨fun w => ⟨atWord_holds w, atWord_hasRoom w⟩, by decide⟩

theorem batchOf_bankOk : (batchOf none 0x80000000 mixed).BankOk where
  full := rfl
  extracted := by unfold laneExtracted; decide
  aligned := by decide

theorem witness_LaneStepsRealiseValidateAndPack :
    (asksOf (batchOf none 0x80000000 mixed) .validateAndPack).Asks .validateAndPack [] ∧
    (batchOf none 0x80000000 mixed).s2Live = true ∧ (batchOf none 0x80000000 mixed).s1.valid = true ∧
    (batchOf none 0x80000000 mixed).BankOk :=
  ⟨⟨rfl, rfl, rfl⟩, rfl, rfl, batchOf_bankOk⟩

theorem witness_CallAddsExactlyTheAcceptedLanes :
    (batchOf none 0x80000000 mixed).params.outCap = none ∧ acceptedCount (batchOf none 0x80000000 mixed).s1.lanes = 2 := by
  decide

theorem witness_CapacityStopsTheCall :
    (batchOf (some 2) 0x80000000 countDown).params.outCap = some 2 ∧
    (batchOf (some 2) 0x80000000 countDown).cols.loc.length ≤ 2 ∧ (batchOf (some 2) 0x80000000 countDown).fault = none ∧
    acceptedCount (batchOf (some 2) 0x80000000 countDown).s1.lanes = 7 := by decide

theorem witness_SecondCallAppendsTheSameAgain : (batchOf none 0x80000000 mixed).params.outCap = none := by decide

theorem witness_LocationsRiseWithinACall :
    (batchOf none 0xFFFFFFF0 mixed).s1.base.toNat + 4 * ((batchOf none 0xFFFFFFF0 mixed).s1.lanes.length - 1) < 2 ^ 32 := by
  decide

theorem witness_ValidateAndPackBegins :
    (asksOf noStage2 .validateAndPack).Asks .validateAndPack [] ∧ noStage2.s2Live = false ∧
    (asks .validateAndPack).Asks .validateAndPack [] ∧ Block.reset.s1.valid = false ∧
    (asksOf (batchOf none 0x80000000 [0]) .validateAndPack).Asks .validateAndPack [] ∧
    (batchOf none 0x80000000 [0]).s1.valid = true ∧ 1 ≤ (batchOf none 0x80000000 [0]).params.batchN :=
  ⟨asksOf_noStage2 _, rfl, asks_holds _, rfl, ⟨rfl, rfl, rfl⟩, rfl, by decide⟩

theorem witness_Stage2Lifecycle :
    (asksOf noStage2 .s2New).Asks .s2New [] ∧ noStage2.s2Live = false ∧ (asks .s2New).Asks .s2New [] ∧
    Block.reset.s2Live = true ∧ (asks .s2Clear).Asks .s2Clear [] ∧ (asks .s2Destroy).Asks .s2Destroy [] ∧
    (asksOf noStage2 .s2Len).Asks .s2Len [] :=
  ⟨asksOf_noStage2 _, rfl, asks_holds _, rfl, asks_holds _, asks_holds _, asksOf_noStage2 _⟩

/-- Reset's block with the one entry. -/
def oneEntryBlock : Block :=
  { Block.reset with cols := oneEntry }

theorem witness_ColumnReadsAnswerTheElement :
    oneEntryBlock.s2Live = true ∧ oneEntryBlock.cols.Lockstep ∧ (asksOf oneEntryBlock .s2Len).Asks .s2Len [] ∧
    (asksOf oneEntryBlock (.s2Read 0)).Asks (.s2Read 0) [] ∧ 0 < oneEntryBlock.cols.loc.length ∧
    (asksOf oneEntryBlock (.s2Read 1)).Asks (.s2Read 1) [] ∧ oneEntryBlock.cols.loc.length ≤ 1 ∧
    (∀ c k, (asksOf oneEntryBlock (.s2ReadColumn c k)).Asks (.s2ReadColumn c k) []) :=
  ⟨rfl, ⟨rfl, rfl, rfl⟩, ⟨rfl, rfl, rfl⟩, ⟨rfl, rfl, rfl⟩, by decide, ⟨rfl, rfl, rfl⟩, by decide,
    fun _ _ => ⟨rfl, rfl, rfl⟩⟩

/-- Spec/95 scenario 1's entry read one column at a time (R196), and past its end. -/
theorem test_read_one_column :
    answerOf (asksOf oneEntryBlock (.s2ReadColumn .loc 0)) = some (.element (.loc 0x80000000)) ∧
    answerOf (asksOf oneEntryBlock (.s2ReadColumn .op 0)) = some (.element (.op .add)) ∧
    answerOf (asksOf oneEntryBlock (.s2ReadColumn .regs 0)) = some (.element (.regs 0x0443)) ∧
    answerOf (asksOf oneEntryBlock (.s2ReadColumn .imm 0)) = some (.element (.imm 0)) ∧
    markOf (asksOf oneEntryBlock (.s2ReadColumn .op 1)) = some .indexOutOfRange := by decide

/-- Reset's block built without the scalar decode. -/
def noScalar : Block :=
  { Block.reset with params := ⟨4, none, false⟩ }

theorem witness_UnknownRequestsAreRefused :
    (asks .unsupported).Asks .unsupported [] ∧ (asksOf noScalar (.decodeOne 0x13)).Asks (.decodeOne 0x13) [] ∧
    noScalar.params.hasScalar = false ∧ (asks (.s1Decode 0 [0, 0, 0])).Asks (.s1Decode 0 [0, 0, 0]) [] ∧
    ([0, 0, 0] : List Word).length ≠ Block.reset.params.batchN :=
  ⟨asks_holds _, ⟨rfl, rfl, rfl⟩, rfl, asks_holds _, by decide⟩

theorem witness_ScalarDecodeAnswersTheClassification :
    (asks (.decodeOne 0x003100B3)).Asks (.decodeOne 0x003100B3) [] ∧ Block.reset.params.hasScalar = true ∧
    classify (extract 0x003100B3) = .accept .add .rtype ∧ (asks (.decodeOne 0x13)).Asks (.decodeOne 0x13) [] ∧
    classify (extract 0x13) = .reject .x0Write :=
  ⟨asks_holds _, rfl, by decide, asks_holds _, by decide⟩

/-- A call stands at its last lane, with an entry recorded and a byte of DRAM written. -/
def midCall : State :=
  { block := { batchOf (some 2) 0x80000000 mixed with cols := oneEntry, mem := [(255, 0xFF)] }
    busy := true
    lane := 3
    requests := [.s2Len]
    responses := [.done] }

theorem midCall_inv : midCall.Inv where
  dram := ⟨by decide, by decide, by decide⟩
  bank := ⟨rfl, by unfold laneExtracted; decide, by decide⟩
  columns :=
    { lockstep := ⟨rfl, rfl, rfl⟩
      entries := by
        intro e he
        have he' : e ∈ [((0x80000000 : Pc), OpTag.add, (0x0443 : Packed), (0 : Imm))] := he
        rw [List.mem_singleton] at he'
        subst he'
        exact ⟨by decide, by decide, trivial, fun _ => by decide, rfl⟩
      capacity := by
        intro cap h
        cases h
        decide }
  call := fun _ => by decide

theorem witness_StepKeepsTheInvariant : midCall.Inv ∧ (∃ t, step midCall = .next t) := ⟨midCall_inv, _, rfl⟩

theorem witness_DiagAndMarksAreForGood :
    (∃ t, step (asksOf { Block.reset with refused := some .alreadyLive } (.s2Read 0)) = .next t) ∧
    ({ State.reset with block := Block.reset.markFault .capacityExceeded } : State).block.fault =
      some .capacityExceeded :=
  ⟨⟨_, rfl⟩, rfl⟩

theorem witness_UnboundedColumnsNeverFault :
    State.reset.block.params.outCap = none ∧ State.reset.block.fault = none := by decide

end Sys2Proof.Tests
end

section
/-! The packed register fields (spec/10 R33 to R35): what each extraction function reads from a packed value, and each bit of it. -/

namespace Sys2Proof.Machine

variable (rd rs1 rs2 : Reg)

@[simp] theorem getRs2_packRegs : getRs2 (packRegs rd rs1 rs2) = rs2 :=
  BitVec.extractLsb'_append_eq_right

@[simp] theorem getRs1_packRegs : getRs1 (packRegs rd rs1 rs2) = rs1 := by
  unfold getRs1 packRegs
  rw [BitVec.extractLsb'_append_eq_of_le (by decide)]
  exact BitVec.extractLsb'_append_eq_right

@[simp] theorem getRd_packRegs : getRd (packRegs rd rs1 rs2) = rd := by
  unfold getRd packRegs
  rw [BitVec.extractLsb'_append_eq_of_le (by decide), BitVec.extractLsb'_append_eq_of_le (by decide)]
  exact BitVec.extractLsb'_append_eq_right

/-- The layout of R33, where the unused top bit reads as a bit of `rd` past its width. -/
theorem getLsbD_packRegs (i : Nat) : (packRegs rd rs1 rs2).getLsbD i =
    if i < 5 then rs2.getLsbD i else if i < 10 then rs1.getLsbD (i - 5) else rd.getLsbD (i - 10) := by
  have hrs1 : i - 5 < 5 ↔ i < 10 := by omega
  simp only [packRegs, BitVec.getLsbD_append, Nat.sub_sub, hrs1]
  split_ifs with h5 h10 hrd
  · rfl
  · rfl
  · rfl
  · rw [BitVec.getLsbD_of_ge rd _ (not_lt.mp hrd)]
    exact BitVec.getLsbD_zero

theorem getLsbD_packRegs_unused : (packRegs rd rs1 rs2).getLsbD 15 = false := by
  rw [getLsbD_packRegs]
  exact BitVec.getLsbD_of_ge rd 5 le_rfl

/-- Each bit of the value comes from one shifted field, since the other two have no bit there. -/
theorem packRegs_eq_shifts : packRegs rd rs1 rs2 =
    (rd.setWidth 16 <<< 10) ||| (rs1.setWidth 16 <<< 5) ||| rs2.setWidth 16 := by
  refine BitVec.eq_of_getLsbD_eq fun i hi => ?_
  simp only [getLsbD_packRegs, BitVec.getLsbD_or, BitVec.getLsbD_shiftLeft, BitVec.getLsbD_setWidth]
  obtain h5 | ⟨h5, h10⟩ | h10 : i < 5 ∨ (5 ≤ i ∧ i < 10) ∨ 10 ≤ i := by omega
  · have h10 : i < 10 := by omega
    simp [h5, h10, hi]
  · have hrs2 : rs2.getLsbD i = false := BitVec.getLsbD_of_ge rs2 i h5
    have hin : i - 5 < 16 := by omega
    simp [h5.not_gt, h10, hi, hin, hrs2]
  · have h5 : ¬ i < 5 := by omega
    have hrs2 : rs2.getLsbD i = false := BitVec.getLsbD_of_ge rs2 i (by omega)
    have hrs1 : rs1.getLsbD (i - 5) = false := BitVec.getLsbD_of_ge rs1 (i - 5) (by omega)
    have hin : i - 10 < 16 := by omega
    simp [h5, h10.not_gt, hi, hin, hrs1, hrs2]

end Sys2Proof.Machine
end

section

namespace Sys2Proof.Machine

/-- Settles O54: each extraction reads its own field of the append, and the shift formula and the clear top bit are read off bit
by bit. -/
theorem packedRegistersUnpack : Obligations.PackedRegistersUnpack := fun rd rs1 rs2 =>
  ⟨getRd_packRegs rd rs1 rs2, getRs1_packRegs rd rs1 rs2, getRs2_packRegs rd rs1 rs2, packRegs_eq_shifts rd rs1 rs2,
    getLsbD_packRegs_unused rd rs1 rs2⟩

end Sys2Proof.Machine
end

section
/-! The step at a lane (spec/42 R181): from what the decoder answers for the lane's word to the next state written out field by
field (Sys2Proof/Safety.lean: `recorded`, `dropped`). -/

namespace Sys2Proof.Machine

/-- R191: the six fields of an extracted lane are the whole word. -/
@[simp] theorem extract_word (w : Word) : (extract w).word = w := by
  simp only [Lane.word, extract_funct7, extract_rs2, extract_rs1, extract_funct3, extract_rd, extract_opcode]
  repeat rw [BitVec.extractLsb'_append_extractLsb'_eq_extractLsb' (by rfl)]
  exact BitVec.extractLsb'_eq_self

theorem acceptLane_of_hasRoom {s : State} (h : s.block.hasRoom) (op : OpTag) (regs : Packed) (imm : Imm) :
    s.acceptLane op regs imm = s.recorded op regs imm :=
  acceptLane_of_room ((full_eq_false_iff s.block).mpr h) op regs imm

variable {s : State} {w : Word}

theorem dropLane_of_atWord (hs : s.AtWord w) (r : Reason) : s.dropLane r = s.dropped w r := by
  simp [State.dropLane, State.dropped, Stage1.laneAt, hs.lane, diagOf, Block.emit]

theorem step_of_instr (hs : s.AtWord w) {i : Instr} {t : State} (hd : decodeLane (extract w) = .instr i)
    (he : exec i s = .next t) : step s = .next t.afterLane := by
  simp [step, hs.noFault, hs.busy, State.laneStep, hs.lane, hd, he, continueCall]

theorem step_of_reject (hs : s.AtWord w) {r : Reason} (hd : decodeLane (extract w) = .reject r) :
    step s = .next (s.dropped w r).afterLane := by
  simp [step, hs.noFault, hs.busy, State.laneStep, hs.lane, hd, dropLane_of_atWord hs]

/-- The meaning of the instruction accepts the lane, whatever its rd field holds. -/
theorem step_of_accept (hs : s.AtWord w) {i : Instr} {op : OpTag} {regs : Packed} {imm : Imm}
    (hd : decodeLane (extract w) = .instr i) (he : exec i s = .next (s.acceptLane op regs imm)) (hroom : s.block.hasRoom) :
    step s = .next (s.recorded op regs imm).afterLane :=
  step_of_instr hs hd (he.trans (by rw [acceptLane_of_hasRoom hroom]))

/-- The lane holds a writing instruction, whose meaning records this entry unless the lane's rd is 0. -/
def LaneWrites (l : Lane) (op : OpTag) (regs : Packed) (imm : Imm) : Prop :=
  ∃ i, decodeLane l = .instr i ∧ ∀ s, exec i s = .next (s.acceptWriting l.rd op regs imm)

variable {op : OpTag} {regs : Packed} {imm : Imm}

/-- R186 at a step. -/
theorem LaneWrites.step_of_x0 (h : LaneWrites (extract w) op regs imm) (hs : s.AtWord w) (hrd : w.extractLsb' 7 5 = 0#5) :
    step s = .next (s.dropped w .x0Write).afterLane := by
  obtain ⟨i, hd, he⟩ := h
  refine step_of_instr hs hd ((he s).trans ?_)
  rw [extract_rd, hrd, acceptWriting_of_x0, dropLane_of_atWord hs]

theorem LaneWrites.step_of_hasRoom (h : LaneWrites (extract w) op regs imm) (hs : s.AtWord w)
    (hrd : w.extractLsb' 7 5 ≠ 0#5) (hroom : s.block.hasRoom) : step s = .next (s.recorded op regs imm).afterLane := by
  obtain ⟨i, hd, he⟩ := h
  exact step_of_accept hs hd ((he s).trans (by rw [extract_rd, acceptWriting_of_ne hrd])) hroom

end Sys2Proof.Machine
end

section
/-! The recorded immediate of an instruction read from a word is the lane's immediate (spec/42 R187): the operand field
keeps every bit that the extension does not repeat. -/

namespace Sys2Proof.Machine

theorem extractLsb'_signExtend {n v : Nat} (x : BitVec n) (h : n ≤ v) : (x.signExtend v).extractLsb' 0 n = x := by
  refine BitVec.eq_of_getLsbD_eq fun i hi => ?_
  simp [BitVec.getElem_signExtend, hi, hi.trans_le h]

theorem immOf12_imm12 (w : Word) : immOf12 (extract w).imm12 = immI w :=
  congrArg immOf12 (extractLsb'_signExtend (w.extractLsb' 20 12) (by decide))

theorem immOfJump_jumpOffset (w : Word) : immOfJump (extract w).jumpOffset = immJ w :=
  congrArg immOfJump (extractLsb'_signExtend _ (by decide))

theorem immOfUpper_upperImm (w : Word) : immOfUpper (extract w).upperImm = immU w :=
  congrArg immOfUpper BitVec.extractLsb'_append_eq_left

end Sys2Proof.Machine
end

section
/-! Lanes of OP (spec/30 R111): the (funct3, funct7) map as a list, and what the decoder answers inside and outside it. -/

namespace Sys2Proof.Machine

/-- The ten accepted (funct3, funct7) pairs of R111, as `Obligations.OpLaneFollowsTheFunctMap` lists them. -/
def opRows : List ((BitVec 3 × BitVec 7) × OpTag) :=
  [((0#3, 0x00#7), .add), ((0#3, 0x20#7), .sub), ((1#3, 0x00#7), .sll), ((2#3, 0x00#7), .slt), ((3#3, 0x00#7), .sltu),
   ((4#3, 0x00#7), .xor), ((5#3, 0x00#7), .srl), ((5#3, 0x20#7), .sra), ((6#3, 0x00#7), .or), ((7#3, 0x00#7), .and)]

variable {l : Lane}

theorem laneWrites_of_mem_opRows {op : OpTag} (hopc : l.opcode = opcOp) (h : ((l.funct3, l.funct7), op) ∈ opRows) :
    LaneWrites l op (packRegs l.rd l.rs1 l.rs2) 0#32 := by
  unfold LaneWrites
  rw [decodeLane_of_op hopc]
  simp only [opRows, List.mem_cons, List.not_mem_nil, or_false, Prod.mk.injEq] at h
  rcases h with h | h | h | h | h | h | h | h | h | h <;> obtain ⟨⟨h3, h7⟩, rfl⟩ := h <;>
    exact ⟨_, by simp only [decodeOp, h3, h7]; rfl, fun _ => rfl⟩

/-- The ten tests of `decodeOp` are the ten pairs of the list. -/
theorem decodeLane_of_notMem_opRows (hopc : l.opcode = opcOp) (h : ∀ op, ((l.funct3, l.funct7), op) ∉ opRows) :
    decodeLane l = .reject .funct7 := by
  have hno : ∀ row ∈ opRows, ¬(l.funct3 = row.1.1 ∧ l.funct7 = row.1.2) := by
    rintro ⟨⟨f3, f7⟩, op⟩ hrow ⟨rfl, rfl⟩
    exact h op hrow
  simp only [opRows, List.forall_mem_cons] at hno
  simp only [decodeLane_of_op hopc, decodeOp, hno, if_false]

end Sys2Proof.Machine
end

section
/-! Lanes of JALR, JAL, LUI and AUIPC (spec/30 R116 to R118). -/

namespace Sys2Proof.Machine

variable {w : Word}

theorem laneWrites_of_jalr (hopc : w.extractLsb' 0 7 = opcJalr) (h3 : w.extractLsb' 12 3 = 0#3) :
    LaneWrites (extract w) .jalr (packRegs (w.extractLsb' 7 5) (w.extractLsb' 15 5) 0) (immI w) := by
  rw [← immOf12_imm12]
  exact ⟨_, (decodeLane_of_jalr hopc).trans (if_pos h3), fun _ => rfl⟩

theorem laneWrites_of_jal (hopc : w.extractLsb' 0 7 = opcJal) (h3 : w.extractLsb' 12 3 = 0#3) :
    LaneWrites (extract w) .jal (packRegs (w.extractLsb' 7 5) 0 0) (immJ w) := by
  rw [← immOfJump_jumpOffset]
  exact ⟨_, (decodeLane_of_jal hopc).trans (if_pos h3), fun _ => rfl⟩

theorem laneWrites_of_lui (hopc : w.extractLsb' 0 7 = opcLui) :
    LaneWrites (extract w) .lui (packRegs (w.extractLsb' 7 5) 0 0) (immU w) := by
  rw [← immOfUpper_upperImm]
  exact ⟨_, decodeLane_of_lui hopc, fun _ => rfl⟩

theorem laneWrites_of_auipc (hopc : w.extractLsb' 0 7 = opcAuipc) :
    LaneWrites (extract w) .auipc (packRegs (w.extractLsb' 7 5) 0 0) (immU w) := by
  rw [← immOfUpper_upperImm]
  exact ⟨_, decodeLane_of_auipc hopc, fun _ => rfl⟩

theorem decodeLane_of_jump_of_funct3_ne (hopc : w.extractLsb' 0 7 = opcJalr ∨ w.extractLsb' 0 7 = opcJal)
    (h3 : w.extractLsb' 12 3 ≠ 0#3) : decodeLane (extract w) = .reject .funct3 := by
  obtain hjalr | hjal := hopc
  · exact (decodeLane_of_jalr hjalr).trans (if_neg h3)
  · exact (decodeLane_of_jal hjal).trans (if_neg h3)

end Sys2Proof.Machine
end

section
/-! Lanes of SYSTEM (spec/30 R119): funct3 first, then the whole immediate. -/

namespace Sys2Proof.Machine

variable {l : Lane}

theorem decodeLane_of_system_of_funct3_ne (hopc : l.opcode = opcSystem) (h3 : l.funct3 ≠ 0#3) :
    decodeLane l = .reject .funct3 :=
  (decodeLane_of_system hopc).trans (if_neg h3)

theorem decodeLane_of_ecall (hopc : l.opcode = opcSystem) (h3 : l.funct3 = 0#3) (himm : l.immI = 0#32) :
    decodeLane l = .instr (.ecall l.rd l.rs1) := by
  simp [decodeLane_of_system hopc, decodeSystem, h3, himm]

theorem decodeLane_of_ebreak (hopc : l.opcode = opcSystem) (h3 : l.funct3 = 0#3) (himm : l.immI = 1#32) :
    decodeLane l = .instr (.ebreak l.rd l.rs1) := by
  simp [decodeLane_of_system hopc, decodeSystem, h3, himm]

theorem decodeLane_of_system_of_immI_ne (hopc : l.opcode = opcSystem) (h3 : l.funct3 = 0#3) (h0 : l.immI ≠ 0#32)
    (h1 : l.immI ≠ 1#32) : decodeLane l = .reject .imm := by
  simp [decodeLane_of_system hopc, decodeSystem, h3, h0, h1]

end Sys2Proof.Machine
end

section
/-! The lane statements of OP, of the jumps and upper immediates, and of SYSTEM: each clause is a step at an accepted or a dropped
lane. -/

namespace Sys2Proof.Machine

/-- Settles O36: the list of the statement is `opRows`. -/
theorem opLaneFollowsTheFunctMap : Obligations.OpLaneFollowsTheFunctMap := fun _ _ hs hopc =>
  ⟨fun _ hmem => (laneWrites_of_mem_opRows hopc hmem).step_of_hasRoom hs,
    fun _ hmem => (laneWrites_of_mem_opRows hopc hmem).step_of_x0 hs,
    fun hno => step_of_reject hs (decodeLane_of_notMem_opRows hopc hno)⟩

/-- Settles O41: each of the four opcodes has its writing lane, and the jumps' other funct3 values have none. -/
theorem jumpAndUpperLanesFollowTheirOpcode : Obligations.JumpAndUpperLanesFollowTheirOpcode := by
  intro s w hs opc rd
  refine ⟨fun hopc h3 => step_of_reject hs (decodeLane_of_jump_of_funct3_ne hopc h3), ?_, ?_,
    fun hopc h3 => (laneWrites_of_jalr hopc h3).step_of_hasRoom hs,
    fun hopc h3 => (laneWrites_of_jal hopc h3).step_of_hasRoom hs,
    fun hopc => (laneWrites_of_lui hopc).step_of_hasRoom hs,
    fun hopc => (laneWrites_of_auipc hopc).step_of_hasRoom hs⟩
  · rintro (hjalr | hjal) h3
    · exact (laneWrites_of_jalr hjalr h3).step_of_x0 hs
    · exact (laneWrites_of_jal hjal h3).step_of_x0 hs
  · rintro (hlui | hauipc)
    · exact (laneWrites_of_lui hlui).step_of_x0 hs
    · exact (laneWrites_of_auipc hauipc).step_of_x0 hs

/-- Settles O42: the four branches of `decodeSystem`; neither meaning reads the rd and rs1 fields. -/
theorem systemLaneFollowsFunct3AndImmediate : Obligations.SystemLaneFollowsFunct3AndImmediate := fun _ _ hs hopc =>
  ⟨fun h3 => step_of_reject hs (decodeLane_of_system_of_funct3_ne hopc h3),
    fun h3 himm => step_of_accept hs (decodeLane_of_ecall hopc h3 himm) rfl,
    fun h3 himm => step_of_accept hs (decodeLane_of_ebreak hopc h3 himm) rfl,
    fun h3 h0 h1 => step_of_reject hs (decodeLane_of_system_of_immI_ne hopc h3 h0 h1)⟩

end Sys2Proof.Machine
end

section
/-! Shifts and masks of a word against its bit slices (spec/41 R152 to R158): the mask `2^n - 1` keeps the low `n` bits, and
sign extension repeats the bit that the arithmetic shift repeats. -/

namespace Sys2Proof

variable {m n v w : Nat}

theorem getLsbD_lowMask (w n i : Nat) :
    (BitVec.ofNat w (2 ^ n - 1)).getLsbD i = (decide (i < w) && decide (i < n)) := by
  rw [BitVec.getLsbD_ofNat, Nat.testBit_two_pow_sub_one]

theorem setWidth_extractLsb'_eq_ushiftRight (x : BitVec w) (start len : Nat) :
    (x.extractLsb' start len).setWidth w = (x >>> start) &&& BitVec.ofNat w (2 ^ len - 1) := by
  refine BitVec.eq_of_getLsbD_eq fun i hi => ?_
  rw [BitVec.getLsbD_and, getLsbD_lowMask, BitVec.getLsbD_ushiftRight]
  simp [hi, Bool.and_comm]

/-- Inside the word the arithmetic shift reads the same bits as the logical one. -/
theorem sshiftRight_and_lowMask (x : BitVec w) (start len : Nat) (h : start + len ≤ w) :
    x.sshiftRight start &&& BitVec.ofNat w (2 ^ len - 1) = (x.extractLsb' start len).setWidth w := by
  refine BitVec.eq_of_getLsbD_eq fun i hi => ?_
  rw [BitVec.getLsbD_and, getLsbD_lowMask, BitVec.getLsbD_sshiftRight]
  by_cases hlen : i < len
  · have hin : start + i < w := by omega
    simp [hi, hlen, hin]
  · simp [hlen]

theorem sshiftRight_and_not_lowMask (x : BitVec w) (start n : Nat) :
    x.sshiftRight start &&& ~~~BitVec.ofNat w (2 ^ n - 1) = x.sshiftRight (start + n) <<< n := by
  refine BitVec.eq_of_getLsbD_eq fun i hi => ?_
  rw [BitVec.getLsbD_and, BitVec.getLsbD_not, getLsbD_lowMask, BitVec.getLsbD_shiftLeft]
  by_cases hn : i < n
  · simp [hn]
  · have hpos : start + n + (i - n) = start + i := by omega
    have hin : ¬w ≤ i - n := by omega
    rw [BitVec.getLsbD_sshiftRight, BitVec.getLsbD_sshiftRight, hpos]
    simp [hi, hi.not_ge, hn, hin]

/-- The slice that ends at the sign bit. -/
theorem signExtend_extractLsb'_eq_sshiftRight (x : BitVec w) {start len : Nat} (h : start + len = w) (hlen : 0 < len) :
    (x.extractLsb' start len).signExtend w = x.sshiftRight start := by
  have hmsb : (x.extractLsb' start len).msb = x.msb := by
    have hlast : start + (len - 1) = w - 1 := by omega
    simp [BitVec.msb_eq_getLsbD_last, hlast, hlen]
  refine BitVec.eq_of_getLsbD_eq fun i hi => ?_
  have hin : start + i < w ↔ i < len := by omega
  rw [BitVec.getLsbD_signExtend, BitVec.getLsbD_sshiftRight, hmsb]
  by_cases hl : i < len <;> simp [hi, hi.not_ge, hin, hl]

theorem signExtend_append (x : BitVec m) (y : BitVec n) (hm : 0 < m) :
    (x ++ y).signExtend v = (x.signExtend v <<< n) ||| y.setWidth v := by
  have hmsb : (x ++ y).msb = x.msb := by simp [BitVec.msb_append, hm.ne']
  refine BitVec.eq_of_getLsbD_eq fun i hi => ?_
  simp only [BitVec.getLsbD_or, BitVec.getLsbD_shiftLeft, BitVec.getLsbD_signExtend, BitVec.getLsbD_setWidth,
    BitVec.getLsbD_append, hmsb]
  by_cases hn : i < n
  · have hmn : i < m + n := by omega
    simp [hi, hn, hmn]
  · have hiv : i - n < v := by omega
    have hmn : i - n < m ↔ i < m + n := by omega
    have hy : y.getLsbD i = false := BitVec.getLsbD_of_ge y i (not_lt.mp hn)
    simp [hi, hn, hiv, hmn, hy]

end Sys2Proof
end

section
/-! The source's formulas of `imm_i`, `imm_s`, `imm_b` and `imm_u` (spec/41 R154 to R157), which the model keeps as `sourceImmI`
to `sourceImmU`, and the value of each immediate as a signed slice of the word. -/

namespace Sys2Proof

theorem immI_eq_sourceImmI (w : Word) : immI w = sourceImmI w :=
  signExtend_extractLsb'_eq_sshiftRight w (by decide) (by decide)

theorem immS_eq_sourceImmS (w : Word) : immS w = sourceImmS w := by
  have hi : w.sshiftRight 20 &&& ~~~0x1f#32 = w.sshiftRight 25 <<< 5 := sshiftRight_and_not_lowMask w 20 5
  have lo : w.sshiftRight 7 &&& 0x1f#32 = (w.extractLsb' 7 5).setWidth 32 :=
    sshiftRight_and_lowMask w 7 5 (by decide)
  rw [immS, sourceImmS, signExtend_append _ _ (by decide), signExtend_extractLsb'_eq_sshiftRight w rfl (by decide), hi, lo]

/-- The first slice alone is sign-extended; every later one is shifted past the bits that follow it. -/
theorem immB_eq_sourceImmB (w : Word) : immB w = sourceImmB w := by
  have sign : w.sshiftRight 19 &&& ~~~0xfff#32 = w.sshiftRight 31 <<< 12 := sshiftRight_and_not_lowMask w 19 12
  have bit11 : w.sshiftRight 7 &&& 0x1#32 = (w.extractLsb' 7 1).setWidth 32 :=
    sshiftRight_and_lowMask w 7 1 (by decide)
  have hi : w.sshiftRight 25 &&& 0x3f#32 = (w.extractLsb' 25 6).setWidth 32 :=
    sshiftRight_and_lowMask w 25 6 (by decide)
  have lo : w.sshiftRight 8 &&& 0xf#32 = (w.extractLsb' 8 4).setWidth 32 :=
    sshiftRight_and_lowMask w 8 4 (by decide)
  rw [sourceImmB, sign, bit11, hi, lo, immB]
  repeat rw [signExtend_append _ _ (by decide)]
  rw [signExtend_extractLsb'_eq_sshiftRight w rfl (by decide)]
  simp [BitVec.shiftLeft_or_distrib, ← BitVec.shiftLeft_add]

/-- At its full width sign extension changes nothing, so the slices unfold as those of the other immediates do. -/
theorem immU_eq_sourceImmU (w : Word) : immU w = sourceImmU w :=
  calc immU w = (immU w).signExtend 32 := (BitVec.signExtend_eq _).symm
    _ = (w.sshiftRight 12 <<< 12) ||| (0#12).setWidth 32 := by
      rw [immU, signExtend_append _ _ (by decide), signExtend_extractLsb'_eq_sshiftRight w rfl (by decide)]
    _ = w.sshiftRight 12 <<< 12 := BitVec.or_zero
    _ = w.sshiftRight 0 &&& 0xFFFFF000#32 := (sshiftRight_and_not_lowMask w 0 12).symm
    _ = sourceImmU w := by rw [BitVec.sshiftRight_zero, sourceImmU]

theorem toInt_immI (w : Word) : (immI w).toInt = (w.extractLsb' 20 12).toInt :=
  BitVec.toInt_signExtend_of_le (by decide)

theorem toInt_immS (w : Word) : (immS w).toInt = (w.extractLsb' 25 7 ++ w.extractLsb' 7 5).toInt :=
  BitVec.toInt_signExtend_of_le (by decide)

theorem toInt_immB (w : Word) : (immB w).toInt =
    2 * (w.extractLsb' 31 1 ++ w.extractLsb' 7 1 ++ w.extractLsb' 25 6 ++ w.extractLsb' 8 4).toInt :=
  (BitVec.toInt_signExtend_of_le (by decide)).trans BitVec.toInt_append_zero

theorem toInt_immU (w : Word) : (immU w).toInt = 4096 * (w.extractLsb' 12 20).toInt :=
  BitVec.toInt_append_zero

theorem getLsbD_zero_immB (w : Word) : (immB w).getLsbD 0 = false := by
  rw [immB, BitVec.getLsbD_signExtend, BitVec.getLsbD_append]
  rfl

/-- The range of every immediate of twelve bits. -/
theorem toInt_bounds_of_twelve_bits (x : BitVec 12) : -2048 ≤ x.toInt ∧ x.toInt ≤ 2047 :=
  ⟨x.le_toInt, x.toInt_le⟩

theorem immI_bounds (w : Word) : -2048 ≤ (immI w).toInt ∧ (immI w).toInt ≤ 2047 := by
  rw [toInt_immI]
  exact toInt_bounds_of_twelve_bits _

theorem immS_bounds (w : Word) : -2048 ≤ (immS w).toInt ∧ (immS w).toInt ≤ 2047 := by
  rw [toInt_immS]
  exact toInt_bounds_of_twelve_bits _

theorem immB_bounds (w : Word) : -4096 ≤ (immB w).toInt ∧ (immB w).toInt ≤ 4094 := by
  have hbits := toInt_bounds_of_twelve_bits
    (w.extractLsb' 31 1 ++ w.extractLsb' 7 1 ++ w.extractLsb' 25 6 ++ w.extractLsb' 8 4)
  rw [toInt_immB]
  omega

theorem immU_bounds (w : Word) : -2 ^ 31 ≤ (immU w).toInt ∧ (immU w).toInt ≤ 2 ^ 31 - 4096 := by
  have lower : -524288 ≤ (w.extractLsb' 12 20).toInt := BitVec.le_toInt _
  have upper : (w.extractLsb' 12 20).toInt ≤ 524287 := BitVec.toInt_le
  rw [toInt_immU]
  omega

end Sys2Proof
end

section
/-! The statements of the Stage-1 extractor: the general clauses are the lemmas above, the examples are evaluated. -/

namespace Sys2Proof.Machine

/-- Settles O7: a field is its slice by definition, and the slice is the shifted and masked word. -/
theorem fieldsAreTheSourceFormulas : Obligations.FieldsAreTheSourceFormulas := by
  refine ⟨fun w => ⟨rfl, rfl, rfl, rfl, rfl, rfl, ?_, setWidth_extractLsb'_eq_ushiftRight w 7 5,
    setWidth_extractLsb'_eq_ushiftRight w 12 3, setWidth_extractLsb'_eq_ushiftRight w 15 5,
    setWidth_extractLsb'_eq_ushiftRight w 20 5, setWidth_extractLsb'_eq_ushiftRight w 25 7⟩, by decide⟩
  simpa using setWidth_extractLsb'_eq_ushiftRight w 0 7

/-- Settles O8: the value is that of the twelve-bit slice, which the corner cases name. -/
theorem immediateIIsSignExtended : Obligations.ImmediateIIsSignExtended := by
  refine ⟨fun w => ⟨immI_eq_sourceImmI w, rfl, (immI_bounds w).1, (immI_bounds w).2, ?_, ?_⟩, by decide⟩
  · intro hmin
    rw [extract_immI, toInt_immI, hmin]
    decide
  · intro hmax
    rw [extract_immI, toInt_immI, hmax]
    decide

/-- Settles O9: the source formula, and the range of a twelve-bit value. -/
theorem immediateSIsSignExtended : Obligations.ImmediateSIsSignExtended :=
  ⟨fun w => ⟨immS_eq_sourceImmS w, rfl, immS_bounds w⟩, by decide⟩

/-- Settles O10: the source formula, and the range of twice a twelve-bit value. -/
theorem immediateBIsSignExtended : Obligations.ImmediateBIsSignExtended :=
  ⟨fun w => ⟨immB_eq_sourceImmB w, rfl, getLsbD_zero_immB w, immB_bounds w⟩, by decide⟩

/-- Settles O11: the source formula, and the range of 4096 times a twenty-bit value. -/
theorem immediateUIsTheUpperBits : Obligations.ImmediateUIsTheUpperBits := by
  refine ⟨fun w => ⟨immU_eq_sourceImmU w, rfl, ?_, immU_bounds w⟩, by decide⟩
  rw [extract_immU, toInt_immU]
  exact Int.mul_emod_right 4096 _

end Sys2Proof.Machine
end

section
/-! The whole call of R181 by its lanes: what `packLanes` does at the first one, and what it has added after the last when the
columns are unbounded (R192). -/

namespace Sys2Proof.Machine

variable {l : Lane} {op : OpTag} {cls : OpClass} {r : Reason} {b : Block}

@[simp] theorem acceptedCount_nil : acceptedCount [] = 0 := rfl

theorem acceptedCount_cons_of_accept (h : classify l = .accept op cls) (lanes : List Lane) :
    acceptedCount (l :: lanes) = acceptedCount lanes + 1 :=
  List.countP_cons_of_pos (by rw [h])

theorem acceptedCount_cons_of_reject (h : classify l = .reject r) (lanes : List Lane) :
    acceptedCount (l :: lanes) = acceptedCount lanes :=
  List.countP_cons_of_neg (by rw [h]; exact Bool.false_ne_true)

@[simp] theorem packLanes_nil (b : Block) (i : Nat) : b.packLanes [] i = b := rfl

theorem packLanes_cons_of_reject (h : classify l = .reject r) (b : Block) (lanes : List Lane) (i : Nat) :
    b.packLanes (l :: lanes) i = (b.emit (diagOf l i r)).packLanes lanes (i + 1) := by
  rw [Block.packLanes, h]

theorem packLanes_cons_of_accept (h : classify l = .accept op cls) (hroom : b.full = false) (lanes : List Lane) (i : Nat) :
    b.packLanes (l :: lanes) i =
      (b.appendEntry (locOf b.s1.base i) op (packOf cls l) (immOf cls l)).packLanes lanes (i + 1) := by
  simp [Block.packLanes, h, hroom]

theorem full_of_unbounded (h : b.params.outCap = none) : b.full = false :=
  (full_eq_false_iff b).mpr fun cap hcap => by simp [h] at hcap

/-- Each lane adds one entry or one record, so the records and the accepted lanes together count the lanes. -/
theorem packLanes_counts_of_unbounded (lanes : List Lane) (b : Block) (i : Nat) (h : b.params.outCap = none) :
    (b.packLanes lanes i).cols.loc.length = b.cols.loc.length + acceptedCount lanes ∧
    (b.packLanes lanes i).diag.length + acceptedCount lanes = b.diag.length + lanes.length ∧
    (b.packLanes lanes i).fault = b.fault := by
  induction lanes generalizing b i with
  | nil => simp
  | cons l lanes ih =>
    cases hl : classify l with
    | reject r =>
      obtain ⟨hloc, hdiag, hfault⟩ := ih (b.emit (diagOf l i r)) (i + 1) h
      rw [packLanes_cons_of_reject hl, acceptedCount_cons_of_reject hl]
      simp only [Block_emit_diag, List.length_append, List.length_singleton] at hdiag
      exact ⟨hloc, by rw [List.length_cons]; omega, hfault⟩
    | accept op cls =>
      obtain ⟨hloc, hdiag, hfault⟩ :=
        ih (b.appendEntry (locOf b.s1.base i) op (packOf cls l) (immOf cls l)) (i + 1) h
      rw [packLanes_cons_of_accept hl (full_of_unbounded h), acceptedCount_cons_of_accept hl]
      simp only [Block_appendEntry_cols, Columns_append_loc, List.length_append, List.length_singleton] at hloc
      rw [Block_appendEntry_diag] at hdiag
      exact ⟨by omega, by rw [List.length_cons]; omega, hfault⟩

end Sys2Proof.Machine
end

section

namespace Sys2Proof.Machine

/-- Settles O44: the call packs the whole bank from lane 0, and every lane adds one entry or one record. -/
theorem callAddsExactlyTheAcceptedLanes : Obligations.CallAddsExactlyTheAcceptedLanes := by
  intro b hcap
  obtain ⟨hloc, hdiag, hfault⟩ := packLanes_counts_of_unbounded b.s1.lanes b 0 hcap
  have hle : acceptedCount b.s1.lanes ≤ b.s1.lanes.length := List.countP_le_length
  rw [Block.packAll]
  exact ⟨hloc, by omega, hfault⟩

end Sys2Proof.Machine
end

section
/-! A transaction the caller asks for (spec/10 R10, R49): the step is the transaction on the rest of the queue, and its answer and
its refusal are the next states `answered` and `refusedFor` of Sys2Proof/Safety.lean. -/

namespace Sys2Proof.Machine

variable {s : State} {q : Request} {rest : List Request}

theorem step_of_asks (h : s.Asks q rest) : step s = .next ({ s with requests := rest }.transact q) := by
  simp [step, h.noFault, h.idle, h.queue]

theorem step_of_asks_of_answered {b : Block} {r : Response} (h : s.Asks q rest)
    (ht : { s with requests := rest }.transact q = { s with block := b, requests := rest }.respond r) :
    step s = .next (s.answered b rest r) := by
  rw [step_of_asks h, ht]
  rfl

theorem step_of_asks_of_refused {r : RefusalReason} (h : s.Asks q rest)
    (ht : { s with requests := rest }.transact q = { s with requests := rest }.refuse r) :
    step s = .next (s.refusedFor rest r) := by
  rw [step_of_asks h, ht, State.refuse, Block_markRefused_eq]
  rfl

end Sys2Proof.Machine
end

section
/-! The life of the DRAM region (spec/10 R41, R43): what its construction and its end do in each case, and that a dead region
refuses every DRAM transaction but a construction. -/

namespace Sys2Proof.Machine

/-- The block after a construction of the region: no byte is written yet and the draws are new ones (R381). -/
def Block.withFreshDram (b : Block) (size : Nat) (base : Addr) : Block :=
  { b with dramBase := base, dramSize := size, mem := [], dramLive := true, dramGen := b.dramGen + 1 }

theorem byteAt_withFreshDram (b : Block) (size : Nat) (base : Addr) (off : Nat) :
    (b.withFreshDram size base).byteAt off = Config.dramInit (b.dramGen + 1) off := rfl

variable {s : State} {size : Nat} {base : Option Addr} {w : Width} {a : Addr} {v : Value}

theorem dramInit_of_live (h : s.block.dramLive = true) : s.dramInit size base = s.refuse .alreadyLive :=
  if_pos h

theorem dramInit_of_overflow (hdead : s.block.dramLive = false)
    (hover : Config.addrSpace < (base.getD Config.defaultBase).toNat + size) :
    s.dramInit size base = s.refuse .initOverflow := by
  rw [State.dramInit, if_neg (by simp [hdead]), if_pos hover]

theorem dramInit_of_fits (hdead : s.block.dramLive = false)
    (hfits : (base.getD Config.defaultBase).toNat + size ≤ Config.addrSpace) :
    s.dramInit size base =
      { s with block := s.block.withFreshDram size (base.getD Config.defaultBase) }.respond .done := by
  rw [State.dramInit, if_neg (by simp [hdead]), if_neg hfits.not_gt, Block.withFreshDram]

theorem dramDestroy_of_live (h : s.block.dramLive = true) :
    s.dramDestroy = { s with block := { s.block with dramLive := false } }.respond .done :=
  if_pos h

theorem dramDestroy_of_dead (h : s.block.dramLive = false) : s.dramDestroy = s.refuse .useAfterDestroy := by
  simp [State.dramDestroy, h]

theorem dramLoad_of_dead (h : s.block.dramLive = false) : s.dramLoad w a = s.refuse .useAfterDestroy := by
  simp [State.dramLoad, h]

theorem dramStore_of_dead (h : s.block.dramLive = false) : s.dramStore w a v = s.refuse .useAfterDestroy := by
  simp [State.dramStore, h]

end Sys2Proof.Machine
end

section

namespace Sys2Proof.Machine

/-- Settles O22: each clause is one case of the transaction, and the witness of a construction is the block with the fresh region. -/
theorem dramLifecycle : Obligations.DramLifecycle := by
  intro s q rest hs
  refine ⟨?init, ?destroy, ?dead⟩
  case init =>
    rintro size base rfl
    exact ⟨fun hlive => step_of_asks_of_refused hs (dramInit_of_live hlive),
      fun hdead hover => step_of_asks_of_refused hs (dramInit_of_overflow hdead hover),
      fun hdead hfits => ⟨s.block.withFreshDram size (base.getD Config.defaultBase),
        step_of_asks_of_answered hs (dramInit_of_fits hdead hfits), rfl, byteAt_withFreshDram _ _ _⟩⟩
  case destroy =>
    rintro rfl hlive
    exact step_of_asks_of_answered hs (dramDestroy_of_live hlive)
  case dead =>
    rintro hdead (rfl | ⟨w, a, rfl⟩ | ⟨w, a, v, rfl⟩)
    · exact step_of_asks_of_refused hs (dramDestroy_of_dead hdead)
    · exact step_of_asks_of_refused hs (dramLoad_of_dead hdead)
    · exact step_of_asks_of_refused hs (dramStore_of_dead hdead)

end Sys2Proof.Machine
end

section
/-! The row of the opcode table that a lane lies in (spec/42 R182): the one tree that both the decoder and `classify` follow,
without the x0-write test. -/

namespace Sys2Proof.Machine

/-- The operation found in a map, or the reason that there is none. -/
def rowFound (found : Option OpTag) (missing : Reason) : Except Reason OpTag :=
  match found with
  | some op => .ok op
  | none => .error missing

@[simp] theorem rowFound_eq_ok_iff {found : Option OpTag} {missing : Reason} {op : OpTag} :
    rowFound found missing = .ok op ↔ found = some op := by
  cases found <;> simp [rowFound]

@[simp] theorem rowFound_eq_error_iff {found : Option OpTag} {missing r : Reason} :
    rowFound found missing = .error r ↔ found = none ∧ missing = r := by
  cases found <;> simp [rowFound]

/-- The operation whose row a lane lies in, or the first test of R182 it fails. -/
def rowOf (l : Lane) : Except Reason OpTag :=
  if l.opcode = opcOp then rowFound (rMap l.funct3 l.funct7) .funct7
  else if l.opcode = opcOpImm then
    if l.funct3 = 1#3 ∨ l.funct3 = 5#3 then rowFound (shiftMap l.funct3 l.shamtHigh) .shamtHigh
    else .ok (immMap l.funct3)
  else if l.opcode = opcLoad then rowFound (loadMap l.funct3) .funct3
  else if l.opcode = opcStore then rowFound (storeMap l.funct3) .funct3
  else if l.opcode = opcBranch then rowFound (branchMap l.funct3) .funct3
  else if l.opcode = opcJalr then if l.funct3 = 0#3 then .ok .jalr else .error .funct3
  else if l.opcode = opcJal then if l.funct3 = 0#3 then .ok .jal else .error .funct3
  else if l.opcode = opcLui then .ok .lui
  else if l.opcode = opcAuipc then .ok .auipc
  else if l.opcode = opcSystem then
    if l.funct3 = 0#3 then
      if l.immI = 0#32 then .ok .ecall
      else if l.immI = 1#32 then .ok .ebreak
      else .error .imm
    else .error .funct3
  else .error .opcode

/-! ## `classify` is the row and then the x0-write test -/

/-- The verdict on a lane that lies in a row, or in none. -/
def verdictOfRow (l : Lane) : Except Reason OpTag → Verdict
  | .ok op => acceptUnlessX0 l op op.cls
  | .error r => .reject r

theorem verdictOf_eq_verdictOfRow (l : Lane) {found : Option OpTag} {cls : OpClass} (missing : Reason)
    (h : ∀ op, found = some op → op.cls = cls) :
    verdictOf l found cls missing = verdictOfRow l (rowFound found missing) := by
  cases found with
  | none => rfl
  | some op => rw [← h op rfl]; rfl

theorem cls_of_rMap {f3 : BitVec 3} {f7 : BitVec 7} {op : OpTag} : rMap f3 f7 = some op → op.cls = .rtype := by
  unfold rMap; split_ifs <;> rintro ⟨⟩ <;> rfl

theorem cls_of_shiftMap {f3 : BitVec 3} {high : BitVec 7} {op : OpTag} : shiftMap f3 high = some op → op.cls = .ialu := by
  unfold shiftMap; split_ifs <;> rintro ⟨⟩ <;> rfl

theorem cls_immMap (f3 : BitVec 3) : (immMap f3).cls = .ialu := by
  unfold immMap; split_ifs <;> rfl

theorem cls_of_loadMap {f3 : BitVec 3} {op : OpTag} : loadMap f3 = some op → op.cls = .load := by
  unfold loadMap; split_ifs <;> rintro ⟨⟩ <;> rfl

theorem cls_of_storeMap {f3 : BitVec 3} {op : OpTag} : storeMap f3 = some op → op.cls = .store := by
  unfold storeMap; split_ifs <;> rintro ⟨⟩ <;> rfl

theorem cls_of_branchMap {f3 : BitVec 3} {op : OpTag} : branchMap f3 = some op → op.cls = .branch := by
  unfold branchMap; split_ifs <;> rintro ⟨⟩ <;> rfl

/-- The tree of R182 gives each map's operations their one class and makes the x0-write test last. -/
theorem classify_eq_verdictOfRow (l : Lane) : classify l = verdictOfRow l (rowOf l) := by
  have hplain : verdictOfRow l (.ok (immMap l.funct3)) = acceptUnlessX0 l (immMap l.funct3) .ialu := by
    rw [verdictOfRow, cls_immMap]
  simp only [classify, rowOf, apply_ite (verdictOfRow l), hplain, verdictOf_eq_verdictOfRow l _ fun _ => cls_of_rMap,
    verdictOf_eq_verdictOfRow l _ fun _ => cls_of_shiftMap, verdictOf_eq_verdictOfRow l _ fun _ => cls_of_loadMap,
    verdictOf_eq_verdictOfRow l _ fun _ => cls_of_storeMap, verdictOf_eq_verdictOfRow l _ fun _ => cls_of_branchMap]
  rfl

/-! ## The decoder gives the row's instruction with the lane's operands -/

/-- The instruction of an operation whose operands are the lane's fields (R102 to R107). -/
def laneInstr (l : Lane) : OpTag → Instr
  | .add => .add l.rd l.rs1 l.rs2
  | .sub => .sub l.rd l.rs1 l.rs2
  | .xor => .xor l.rd l.rs1 l.rs2
  | .or => .or l.rd l.rs1 l.rs2
  | .and => .and l.rd l.rs1 l.rs2
  | .sll => .sll l.rd l.rs1 l.rs2
  | .srl => .srl l.rd l.rs1 l.rs2
  | .sra => .sra l.rd l.rs1 l.rs2
  | .slt => .slt l.rd l.rs1 l.rs2
  | .sltu => .sltu l.rd l.rs1 l.rs2
  | .addi => .addi l.rd l.rs1 l.imm12
  | .xori => .xori l.rd l.rs1 l.imm12
  | .ori => .ori l.rd l.rs1 l.imm12
  | .andi => .andi l.rd l.rs1 l.imm12
  | .slli => .slli l.rd l.rs1 l.rs2
  | .srli => .srli l.rd l.rs1 l.rs2
  | .srai => .srai l.rd l.rs1 l.rs2
  | .slti => .slti l.rd l.rs1 l.imm12
  | .sltiu => .sltiu l.rd l.rs1 l.imm12
  | .lb => .lb l.rd l.rs1 l.imm12
  | .lh => .lh l.rd l.rs1 l.imm12
  | .lw => .lw l.rd l.rs1 l.imm12
  | .lbu => .lbu l.rd l.rs1 l.imm12
  | .lhu => .lhu l.rd l.rs1 l.imm12
  | .sb => .sb l.rs1 l.rs2 l.storeImm
  | .sh => .sh l.rs1 l.rs2 l.storeImm
  | .sw => .sw l.rs1 l.rs2 l.storeImm
  | .beq => .beq l.rs1 l.rs2 l.branchOffset
  | .bne => .bne l.rs1 l.rs2 l.branchOffset
  | .blt => .blt l.rs1 l.rs2 l.branchOffset
  | .bge => .bge l.rs1 l.rs2 l.branchOffset
  | .bltu => .bltu l.rs1 l.rs2 l.branchOffset
  | .bgeu => .bgeu l.rs1 l.rs2 l.branchOffset
  | .jal => .jal l.rd l.jumpOffset
  | .jalr => .jalr l.rd l.rs1 l.imm12
  | .lui => .lui l.rd l.upperImm
  | .auipc => .auipc l.rd l.upperImm
  | .ecall => .ecall l.rd l.rs1
  | .ebreak => .ebreak l.rd l.rs1

@[simp] theorem tag_laneInstr (l : Lane) (op : OpTag) : (laneInstr l op).tag = op := by
  cases op <;> rfl

/-- What the decoder answers for a lane that lies in a row, or in none. -/
def decodedOfRow (l : Lane) : Except Reason OpTag → Decoded
  | .ok op => .instr (laneInstr l op)
  | .error r => .reject r

theorem funct3_cases : ∀ f3 : BitVec 3,
    f3 = 0#3 ∨ f3 = 1#3 ∨ f3 = 2#3 ∨ f3 = 3#3 ∨ f3 = 4#3 ∨ f3 = 5#3 ∨ f3 = 6#3 ∨ f3 = 7#3 := by
  decide

/-- `decodeOp` tests the pairs by funct3 first, `rMap` by funct7 first. -/
theorem decodeOp_eq_decodedOfRow (l : Lane) :
    decodeOp l = decodedOfRow l (rowFound (rMap l.funct3 l.funct7) .funct7) := by
  have hrow : ∀ found, decodedOfRow l (rowFound found .funct7) =
      match found with | some op => .instr (laneInstr l op) | none => .reject .funct7 := by
    rintro (_ | op) <;> rfl
  rw [hrow]
  by_cases h0 : l.funct7 = 0x00#7
  · rcases funct3_cases l.funct3 with h | h | h | h | h | h | h | h <;> simp [decodeOp, rMap, h, h0, laneInstr]
  · by_cases h20 : l.funct7 = 0x20#7
    · rcases funct3_cases l.funct3 with h | h | h | h | h | h | h | h <;> simp [decodeOp, rMap, h, h20, laneInstr]
    · simp [decodeOp, rMap, h0, h20]

theorem decodeOpImm_eq_decodedOfRow (l : Lane) : decodeOpImm l = decodedOfRow l
    (if l.funct3 = 1#3 ∨ l.funct3 = 5#3 then rowFound (shiftMap l.funct3 l.shamtHigh) .shamtHigh
     else .ok (immMap l.funct3)) := by
  rcases funct3_cases l.funct3 with h | h | h | h | h | h | h | h <;>
    simp [decodeOpImm, shiftMap, immMap, h, apply_ite (decodedOfRow l), apply_ite rowFound, ite_apply] <;> rfl

/-- The decoder and `rowOf` make the same tests. -/
theorem decodeLane_eq_decodedOfRow (l : Lane) : decodeLane l = decodedOfRow l (rowOf l) := by
  simp only [decodeLane, decodeOp_eq_decodedOfRow, decodeOpImm_eq_decodedOfRow, decodeLoad, decodeStore, decodeBranch,
    decodeJalr, decodeJal, decodeSystem, rowOf, loadMap, storeMap, branchMap, apply_ite rowFound, ite_apply,
    apply_ite (decodedOfRow l)]
  rfl

end Sys2Proof.Machine
end

section
/-! What the verdict and the decoded instruction say of a lane's row (spec/42 R182, R186). -/

namespace Sys2Proof.Machine

variable {l : Lane} {op : OpTag} {cls : OpClass} {i : Instr} {r : Reason}

theorem decodeLane_eq_instr_iff : decodeLane l = .instr i ↔ ∃ op, rowOf l = .ok op ∧ laneInstr l op = i := by
  rw [decodeLane_eq_decodedOfRow]
  cases rowOf l <;> simp [decodedOfRow]

theorem decodeLane_eq_reject_iff : decodeLane l = .reject r ↔ rowOf l = .error r := by
  rw [decodeLane_eq_decodedOfRow]
  cases rowOf l <;> simp [decodedOfRow]

theorem rowOf_tag_of_decodeLane (h : decodeLane l = .instr i) : rowOf l = .ok i.tag ∧ laneInstr l i.tag = i := by
  obtain ⟨op, hrow, rfl⟩ := decodeLane_eq_instr_iff.mp h
  rw [tag_laneInstr]
  exact ⟨hrow, rfl⟩

theorem classify_of_rowOf_ok (h : rowOf l = .ok op) : classify l = acceptUnlessX0 l op op.cls := by
  rw [classify_eq_verdictOfRow, h, verdictOfRow]

theorem classify_of_rowOf_error (h : rowOf l = .error r) : classify l = .reject r := by
  rw [classify_eq_verdictOfRow, h, verdictOfRow]

theorem classify_eq_accept_iff :
    classify l = .accept op cls ↔ rowOf l = .ok op ∧ cls = op.cls ∧ (op.cls.writesRd = true → l.rd ≠ 0#5) := by
  rw [classify_eq_verdictOfRow]
  cases hrow : rowOf l with
  | error r => simp [verdictOfRow]
  | ok op' =>
    simp only [verdictOfRow, acceptUnlessX0, Except.ok.injEq]
    split
    · next hx0 =>
      refine iff_of_false Verdict.noConfusion ?_
      rintro ⟨rfl, -, hrd⟩
      exact hrd hx0.1 hx0.2
    · next hx0 =>
      rw [Verdict.accept.injEq]
      refine and_congr_right ?_
      rintro rfl
      exact ⟨fun hcls => ⟨hcls.symm, fun hw hrd => hx0 ⟨hw, hrd⟩⟩, fun h => h.1.symm⟩

/-- No row's test fails with `x0_write`, so that reason says that the lane lies in the row of a writing operation. -/
theorem rowOf_ne_x0Write (l : Lane) : rowOf l ≠ .error .x0Write := by
  unfold rowOf
  repeat' apply ite_ne_of
  all_goals simp

theorem classify_eq_reject_iff (hr : r ≠ .x0Write) : classify l = .reject r ↔ rowOf l = .error r := by
  rw [classify_eq_verdictOfRow]
  cases rowOf l with
  | error r' => simp [verdictOfRow]
  | ok op =>
    simp only [verdictOfRow, acceptUnlessX0]
    split <;> simp [hr.symm]

theorem classify_eq_x0Write_iff :
    classify l = .reject .x0Write ↔ ∃ op, rowOf l = .ok op ∧ op.cls.writesRd = true ∧ l.rd = 0#5 := by
  rw [classify_eq_verdictOfRow]
  cases hrow : rowOf l with
  | error r =>
    have hr : r ≠ .x0Write := fun h => rowOf_ne_x0Write l (h ▸ hrow)
    simp [verdictOfRow, hr]
  | ok op =>
    simp only [verdictOfRow, acceptUnlessX0]
    split <;> simp_all

/-- Settles O5: both follow one row, and the tree adds the x0-write test. -/
theorem decoderAgreesWithClassify : Obligations.DecoderAgreesWithClassify := fun _ =>
  ⟨fun _ hdec => classify_of_rowOf_ok (rowOf_tag_of_decodeLane hdec).1,
    fun _ hdec => classify_of_rowOf_error (decodeLane_eq_reject_iff.mp hdec)⟩

end Sys2Proof.Machine
end

section
/-! The rows of each opcode (spec/30 R111 to R119) as lists, and the tree of one opcode by its list. -/

namespace Sys2Proof.Machine

/-- The OP-IMM operations that funct3 alone selects (R112). -/
def immRows : List (BitVec 3 × OpTag) :=
  [(0#3, .addi), (2#3, .slti), (3#3, .sltiu), (4#3, .xori), (6#3, .ori), (7#3, .andi)]

/-- The shift-immediates by funct3 and shamt-high (R112, R183). -/
def shiftRows : List ((BitVec 3 × BitVec 7) × OpTag) :=
  [((1#3, 0x00#7), .slli), ((5#3, 0x00#7), .srli), ((5#3, 0x20#7), .srai)]

/-- R113. -/
def loadRows : List (BitVec 3 × OpTag) :=
  [(0#3, .lb), (1#3, .lh), (2#3, .lw), (4#3, .lbu), (5#3, .lhu)]

/-- R114. -/
def storeRows : List (BitVec 3 × OpTag) :=
  [(0#3, .sb), (1#3, .sh), (2#3, .sw)]

/-- R115. -/
def branchRows : List (BitVec 3 × OpTag) :=
  [(0#3, .beq), (1#3, .bne), (4#3, .blt), (5#3, .bge), (6#3, .bltu), (7#3, .bgeu)]

variable {l : Lane} {op : OpTag} {f3 : BitVec 3} {f7 : BitVec 7}

/-! ## The maps of the tree are the lists -/

theorem rMap_eq_some_iff : rMap f3 f7 = some op ↔ ((f3, f7), op) ∈ opRows := by
  by_cases h0 : f7 = 0x00#7
  · rcases funct3_cases f3 with h | h | h | h | h | h | h | h <;> simp [rMap, opRows, h, h0, eq_comm]
  · by_cases h20 : f7 = 0x20#7
    · rcases funct3_cases f3 with h | h | h | h | h | h | h | h <;> simp [rMap, opRows, h, h20, eq_comm]
    · simp [rMap, opRows, h0, h20]

theorem shiftMap_eq_some_iff (h : f3 = 1#3 ∨ f3 = 5#3) :
    shiftMap f3 f7 = some op ↔ ((f3, f7), op) ∈ shiftRows := by
  obtain rfl | rfl := h
  · by_cases h0 : f7 = 0x00#7 <;> simp [shiftMap, shiftRows, h0, eq_comm]
  · by_cases h0 : f7 = 0x00#7
    · simp [shiftMap, shiftRows, h0, eq_comm]
    · by_cases h20 : f7 = 0x20#7 <;> simp [shiftMap, shiftRows, h0, h20, eq_comm]

theorem immMap_eq_iff (h : ¬(f3 = 1#3 ∨ f3 = 5#3)) : immMap f3 = op ↔ (f3, op) ∈ immRows := by
  rcases funct3_cases f3 with h3 | h3 | h3 | h3 | h3 | h3 | h3 | h3
  case inr.inl | inr.inr.inr.inr.inr.inl => exact absurd (by simp [h3]) h
  all_goals simp [immMap, immRows, h3, eq_comm]

theorem loadMap_eq_some_iff : loadMap f3 = some op ↔ (f3, op) ∈ loadRows := by
  rcases funct3_cases f3 with h | h | h | h | h | h | h | h <;> simp [loadMap, loadRows, h, eq_comm]

theorem storeMap_eq_some_iff : storeMap f3 = some op ↔ (f3, op) ∈ storeRows := by
  rcases funct3_cases f3 with h | h | h | h | h | h | h | h <;> simp [storeMap, storeRows, h, eq_comm]

theorem branchMap_eq_some_iff : branchMap f3 = some op ↔ (f3, op) ∈ branchRows := by
  rcases funct3_cases f3 with h | h | h | h | h | h | h | h <;> simp [branchMap, branchRows, h, eq_comm]

/-! ## The tree of one opcode -/

theorem rowOf_of_op (h : l.opcode = opcOp) : rowOf l = rowFound (rMap l.funct3 l.funct7) .funct7 := by
  simp [rowOf, h]

theorem rowOf_of_opImm (h : l.opcode = opcOpImm) : rowOf l =
    if l.funct3 = 1#3 ∨ l.funct3 = 5#3 then rowFound (shiftMap l.funct3 l.shamtHigh) .shamtHigh
    else .ok (immMap l.funct3) := by
  simp [rowOf, h, opcOp, opcOpImm]

theorem rowOf_of_load (h : l.opcode = opcLoad) : rowOf l = rowFound (loadMap l.funct3) .funct3 := by
  simp [rowOf, h, opcOp, opcOpImm, opcLoad]

theorem rowOf_of_store (h : l.opcode = opcStore) : rowOf l = rowFound (storeMap l.funct3) .funct3 := by
  simp [rowOf, h, opcOp, opcOpImm, opcLoad, opcStore]

theorem rowOf_of_branch (h : l.opcode = opcBranch) : rowOf l = rowFound (branchMap l.funct3) .funct3 := by
  simp [rowOf, h, opcOp, opcOpImm, opcLoad, opcStore, opcBranch]

theorem rowOf_of_jalr (h : l.opcode = opcJalr) : rowOf l = if l.funct3 = 0#3 then .ok .jalr else .error .funct3 := by
  simp [rowOf, h, opcOp, opcOpImm, opcLoad, opcStore, opcBranch, opcJalr]

theorem rowOf_of_jal (h : l.opcode = opcJal) : rowOf l = if l.funct3 = 0#3 then .ok .jal else .error .funct3 := by
  simp [rowOf, h, opcOp, opcOpImm, opcLoad, opcStore, opcBranch, opcJalr, opcJal]

theorem rowOf_of_lui (h : l.opcode = opcLui) : rowOf l = .ok .lui := by
  simp [rowOf, h, opcOp, opcOpImm, opcLoad, opcStore, opcBranch, opcJalr, opcJal, opcLui]

theorem rowOf_of_auipc (h : l.opcode = opcAuipc) : rowOf l = .ok .auipc := by
  simp [rowOf, h, opcOp, opcOpImm, opcLoad, opcStore, opcBranch, opcJalr, opcJal, opcLui, opcAuipc]

theorem rowOf_of_system (h : l.opcode = opcSystem) : rowOf l =
    if l.funct3 = 0#3 then
      if l.immI = 0#32 then .ok .ecall else if l.immI = 1#32 then .ok .ebreak else .error .imm
    else .error .funct3 := by
  simp [rowOf, h, opcOp, opcOpImm, opcLoad, opcStore, opcBranch, opcJalr, opcJal, opcLui, opcAuipc, opcSystem]

theorem rowOf_of_unknown (h : l.opcode ∉ knownOpcodes) : rowOf l = .error .opcode :=
  decodeLane_eq_reject_iff.mp (decodeLane_of_unknown h)

/-- The ten opcodes are written as numbers, which `simp` can tell apart. -/
theorem opcode_cases (l : Lane) : l.opcode ∉ knownOpcodes ∨ l.opcode = 0x33#7 ∨ l.opcode = 0x13#7 ∨ l.opcode = 0x03#7 ∨
    l.opcode = 0x23#7 ∨ l.opcode = 0x63#7 ∨ l.opcode = 0x67#7 ∨ l.opcode = 0x6F#7 ∨ l.opcode = 0x37#7 ∨
    l.opcode = 0x17#7 ∨ l.opcode = 0x73#7 := by
  by_cases h : l.opcode ∈ knownOpcodes
  · simp only [knownOpcodes, List.mem_cons, List.not_mem_nil, or_false] at h
    exact .inr h
  · exact .inl h

/-! ## The operations of one opcode -/

theorem rowOf_eq_ok_iff_of_op (h : l.opcode = opcOp) :
    rowOf l = .ok op ↔ ((l.funct3, l.funct7), op) ∈ opRows := by
  rw [rowOf_of_op h, rowFound_eq_ok_iff, rMap_eq_some_iff]

theorem rowOf_eq_ok_iff_of_opImm (h : l.opcode = opcOpImm) :
    rowOf l = .ok op ↔ (l.funct3, op) ∈ immRows ∨ ((l.funct3, l.shamtHigh), op) ∈ shiftRows := by
  rw [rowOf_of_opImm h]
  split
  · next h3 =>
    have hplain : (l.funct3, op) ∉ immRows := by rcases h3 with h3 | h3 <;> simp [immRows, h3]
    simp [shiftMap_eq_some_iff h3, hplain]
  · next h3 =>
    have hshift : ((l.funct3, l.shamtHigh), op) ∉ shiftRows := by simp_all [shiftRows]
    simp [immMap_eq_iff h3, hshift]

theorem rowOf_eq_ok_iff_of_load (h : l.opcode = opcLoad) : rowOf l = .ok op ↔ (l.funct3, op) ∈ loadRows := by
  rw [rowOf_of_load h, rowFound_eq_ok_iff, loadMap_eq_some_iff]

theorem rowOf_eq_ok_iff_of_store (h : l.opcode = opcStore) : rowOf l = .ok op ↔ (l.funct3, op) ∈ storeRows := by
  rw [rowOf_of_store h, rowFound_eq_ok_iff, storeMap_eq_some_iff]

theorem rowOf_eq_ok_iff_of_branch (h : l.opcode = opcBranch) : rowOf l = .ok op ↔ (l.funct3, op) ∈ branchRows := by
  rw [rowOf_of_branch h, rowFound_eq_ok_iff, branchMap_eq_some_iff]

theorem rowOf_eq_ok_iff_of_jalr (h : l.opcode = opcJalr) : rowOf l = .ok op ↔ (l.funct3, op) ∈ [(0#3, .jalr)] := by
  rw [rowOf_of_jalr h]
  split <;> simp_all [eq_comm (a := OpTag.jalr)]

theorem rowOf_eq_ok_iff_of_jal (h : l.opcode = opcJal) : rowOf l = .ok op ↔ (l.funct3, op) ∈ [(0#3, .jal)] := by
  rw [rowOf_of_jal h]
  split <;> simp_all [eq_comm (a := OpTag.jal)]

theorem rowOf_eq_ok_iff_of_system (h : l.opcode = opcSystem) :
    rowOf l = .ok op ↔ l.funct3 = 0#3 ∧ (l.immI, op) ∈ [(0#32, .ecall), (1#32, .ebreak)] := by
  rw [rowOf_of_system h]
  split_ifs <;> simp_all [eq_comm (a := OpTag.ecall), eq_comm (a := OpTag.ebreak)]

end Sys2Proof.Machine
end

section
/-! The opcode table (spec/30 R130): a word lies in the row of an operation exactly when the tree finds that operation for its
lane. -/

namespace Sys2Proof.Machine

variable {w : Word} {op : OpTag}

/-! ## A mask keeps whole fields -/

/-- The fields of a word that an operation's row fixes, each as its lowest bit and its length. -/
def fixedFields : OpTag → List (Nat × Nat)
  | .add | .sub | .xor | .or | .and | .sll | .srl | .sra | .slt | .sltu | .slli | .srli | .srai => [(0, 7), (12, 3), (25, 7)]
  | .lui | .auipc => [(0, 7)]
  | .ecall | .ebreak => [(0, 7), (12, 3), (20, 12)]
  | _ => [(0, 7), (12, 3)]

theorem getLsbD_mask (op : OpTag) : ∀ i < 32,
    op.mask.getLsbD i = (fixedFields op).any fun f => decide (f.1 ≤ i) && decide (i < f.1 + f.2) := by
  cases op <;> decide

theorem matchBits_and_mask (op : OpTag) : op.matchBits &&& op.mask = op.matchBits := by
  cases op <;> rfl

theorem matchesRow_iff : op.matchesRow w = true ↔
    ∀ f ∈ fixedFields op, w.extractLsb' f.1 f.2 = op.matchBits.extractLsb' f.1 f.2 := by
  have hrow : op.matchesRow w = true ↔ w &&& op.mask = op.matchBits &&& op.mask := by
    rw [OpTag.matchesRow, beq_iff_eq, matchBits_and_mask]
  rw [hrow]
  constructor
  · intro h f hf
    refine BitVec.eq_of_getLsbD_eq fun j hj => ?_
    by_cases hin : f.1 + j < 32
    · have hbit : op.mask.getLsbD (f.1 + j) = true := by
        rw [getLsbD_mask op _ hin, List.any_eq_true]
        exact ⟨f, hf, by simp [hj]⟩
      have := congrArg (fun x => x.getLsbD (f.1 + j)) h
      simpa [hbit, hj] using this
    · simp [BitVec.getLsbD_of_ge _ _ (not_lt.mp hin)]
  · intro h
    refine BitVec.eq_of_getLsbD_eq fun i hi => ?_
    rw [BitVec.getLsbD_and, BitVec.getLsbD_and]
    cases hbit : op.mask.getLsbD i with
    | false => simp
    | true =>
      rw [getLsbD_mask op i hi, List.any_eq_true] at hbit
      obtain ⟨f, hf, hif⟩ := hbit
      simp only [Bool.and_eq_true, decide_eq_true_eq] at hif
      have hpos : f.1 + (i - f.1) = i := by omega
      have hlen : i - f.1 < f.2 := by omega
      have := congrArg (fun x => x.getLsbD (i - f.1)) (h f hf)
      simpa [hlen, hpos] using this

/-! ## The tree tests the fixed fields -/

theorem imm12_extract (w : Word) : (extract w).imm12 = w.extractLsb' 20 12 :=
  extractLsb'_signExtend _ (by decide)

/-- The twelve bits of `imm_i` decide it. -/
theorem immI_eq_signExtend_iff (x : BitVec 12) : immI w = x.signExtend 32 ↔ w.extractLsb' 20 12 = x := by
  refine ⟨fun h => ?_, fun h => congrArg _ h⟩
  rw [← imm12_extract, Lane.imm12, extract_immI, h, extractLsb'_signExtend x (by decide)]

theorem immI_eq_zero_iff : immI w = 0#32 ↔ w.extractLsb' 20 12 = 0#12 :=
  immI_eq_signExtend_iff 0#12

theorem immI_eq_one_iff : immI w = 1#32 ↔ w.extractLsb' 20 12 = 1#12 :=
  immI_eq_signExtend_iff 1#12

theorem extractLsb'_extractLsb' {n : Nat} (x : BitVec n) (start len : Nat) {start' len' : Nat} (h : start' + len' ≤ len) :
    (x.extractLsb' start len).extractLsb' start' len' = x.extractLsb' (start + start') len' := by
  refine BitVec.eq_of_getLsbD_eq fun i hi => ?_
  have hin : start' + i < len := by omega
  simp [hi, hin, Nat.add_assoc]

/-- R163: shamt-high is funct7. -/
@[simp] theorem shamtHigh_extract (w : Word) : (extract w).shamtHigh = w.extractLsb' 25 7 := by
  have h : (extract w).shamtHigh = (extract w).imm12.extractLsb' 5 7 :=
    (BitVec.extractLsb'_extractLsb'_of_le (by decide)).symm
  rw [h, imm12_extract, extractLsb'_extractLsb' w 20 12 (by decide)]

theorem rowOf_of_matchesRow (h : op.matchesRow w = true) : rowOf (extract w) = .ok op := by
  rw [matchesRow_iff] at h
  cases op
  all_goals simp only [fixedFields, List.forall_mem_cons] at h
  case add | sub | xor | or | and | sll | srl | sra | slt | sltu =>
    exact (rowOf_eq_ok_iff_of_op h.1).mpr (by simp [h, opRows, OpTag.matchBits])
  case addi | xori | ori | andi | slti | sltiu | slli | srli | srai =>
    exact (rowOf_eq_ok_iff_of_opImm h.1).mpr (by simp [h, immRows, shiftRows, OpTag.matchBits])
  case lb | lh | lw | lbu | lhu =>
    exact (rowOf_eq_ok_iff_of_load h.1).mpr (by simp [h, loadRows, OpTag.matchBits])
  case sb | sh | sw =>
    exact (rowOf_eq_ok_iff_of_store h.1).mpr (by simp [h, storeRows, OpTag.matchBits])
  case beq | bne | blt | bge | bltu | bgeu =>
    exact (rowOf_eq_ok_iff_of_branch h.1).mpr (by simp [h, branchRows, OpTag.matchBits])
  case jalr => exact (rowOf_of_jalr h.1).trans (if_pos h.2.1)
  case jal => exact (rowOf_of_jal h.1).trans (if_pos h.2.1)
  case lui => exact rowOf_of_lui h.1
  case auipc => exact rowOf_of_auipc h.1
  case ecall =>
    exact (rowOf_eq_ok_iff_of_system h.1).mpr ⟨h.2.1, by simp [immI_eq_zero_iff, h, OpTag.matchBits]⟩
  case ebreak =>
    exact (rowOf_eq_ok_iff_of_system h.1).mpr ⟨h.2.1, by simp [immI_eq_one_iff, h, OpTag.matchBits]⟩

/-- The match bits of a row that funct3 selects. -/
theorem matchesRow_of_funct3_rows {rows : List (BitVec 3 × OpTag)} {opc : BitVec 7} (hopc : w.extractLsb' 0 7 = opc)
    (hrows : ∀ row ∈ rows, fixedFields row.2 = [(0, 7), (12, 3)] ∧ row.2.matchBits.extractLsb' 0 7 = opc ∧
      row.2.matchBits.extractLsb' 12 3 = row.1) (h : (w.extractLsb' 12 3, op) ∈ rows) : op.matchesRow w = true := by
  obtain ⟨hfix, h0, h3⟩ := hrows _ h
  rw [matchesRow_iff, hfix]
  simp [hopc, h0, h3]

/-- The match bits of a row that funct3 and funct7 select. -/
theorem matchesRow_of_funct7_rows {rows : List ((BitVec 3 × BitVec 7) × OpTag)} {opc : BitVec 7}
    (hopc : w.extractLsb' 0 7 = opc)
    (hrows : ∀ row ∈ rows, fixedFields row.2 = [(0, 7), (12, 3), (25, 7)] ∧ row.2.matchBits.extractLsb' 0 7 = opc ∧
      row.2.matchBits.extractLsb' 12 3 = row.1.1 ∧ row.2.matchBits.extractLsb' 25 7 = row.1.2)
    (h : ((w.extractLsb' 12 3, w.extractLsb' 25 7), op) ∈ rows) : op.matchesRow w = true := by
  obtain ⟨hfix, h0, h3, h7⟩ := hrows _ h
  rw [matchesRow_iff, hfix]
  simp [hopc, h0, h3, h7]

theorem matchesRow_of_rowOf (h : rowOf (extract w) = .ok op) : op.matchesRow w = true := by
  obtain hk | hk | hk | hk | hk | hk | hk | hk | hk | hk | hk := opcode_cases (extract w)
  · simp [rowOf_of_unknown hk] at h
  · exact matchesRow_of_funct7_rows hk (by decide) ((rowOf_eq_ok_iff_of_op hk).mp h)
  · obtain h | h := (rowOf_eq_ok_iff_of_opImm hk).mp h
    · exact matchesRow_of_funct3_rows hk (by decide) h
    · rw [shamtHigh_extract] at h
      exact matchesRow_of_funct7_rows hk (by decide) h
  · exact matchesRow_of_funct3_rows hk (by decide) ((rowOf_eq_ok_iff_of_load hk).mp h)
  · exact matchesRow_of_funct3_rows hk (by decide) ((rowOf_eq_ok_iff_of_store hk).mp h)
  · exact matchesRow_of_funct3_rows hk (by decide) ((rowOf_eq_ok_iff_of_branch hk).mp h)
  · exact matchesRow_of_funct3_rows hk (by decide) ((rowOf_eq_ok_iff_of_jalr hk).mp h)
  · exact matchesRow_of_funct3_rows hk (by decide) ((rowOf_eq_ok_iff_of_jal hk).mp h)
  · cases (rowOf_of_lui hk).symm.trans h
    exact matchesRow_iff.mpr (List.forall_mem_singleton.mpr hk)
  · cases (rowOf_of_auipc hk).symm.trans h
    exact matchesRow_iff.mpr (List.forall_mem_singleton.mpr hk)
  · obtain ⟨h3, himm⟩ := (rowOf_eq_ok_iff_of_system hk).mp h
    simp only [List.mem_cons, Prod.mk.injEq, List.not_mem_nil, or_false, extract_immI, immI_eq_zero_iff,
      immI_eq_one_iff] at himm
    obtain ⟨himm, rfl⟩ | ⟨himm, rfl⟩ := himm
    · simp only [matchesRow_iff, fixedFields, List.forall_mem_cons]
      exact ⟨hk, h3, himm, List.forall_mem_nil _⟩
    · simp only [matchesRow_iff, fixedFields, List.forall_mem_cons]
      exact ⟨hk, h3, himm, List.forall_mem_nil _⟩

theorem rowOf_extract_eq_ok_iff : rowOf (extract w) = .ok op ↔ op.matchesRow w = true :=
  ⟨matchesRow_of_rowOf, rowOf_of_matchesRow⟩

/-- Settles O4: the tree accepts the operation of the word's row unless the x0-write test, its last, fails. -/
theorem classifyAcceptsExactlyTheTable : Obligations.ClassifyAcceptsExactlyTheTable := fun _ _ _ => by
  rw [classify_eq_accept_iff, rowOf_extract_eq_ok_iff, extract_rd]

end Sys2Proof.Machine
end

section
/-! The formats of R102 to R107 in both directions: the fields of a word make the word, and the fields of an encoded word are
the operands. -/

namespace Sys2Proof.Machine

/-! ## The immediate fields of an extracted lane -/

theorem storeImm_extract (w : Word) : (extract w).storeImm = w.extractLsb' 25 7 ++ w.extractLsb' 7 5 :=
  extractLsb'_signExtend _ (by decide)

theorem branchOffset_extract (w : Word) : (extract w).branchOffset =
    w.extractLsb' 31 1 ++ w.extractLsb' 7 1 ++ w.extractLsb' 25 6 ++ w.extractLsb' 8 4 ++ 0#1 :=
  extractLsb'_signExtend _ (by decide)

theorem upperImm_extract (w : Word) : (extract w).upperImm = w.extractLsb' 12 20 :=
  BitVec.extractLsb'_append_eq_left

theorem jumpOffset_extract (w : Word) : (extract w).jumpOffset =
    w.extractLsb' 31 1 ++ w.extractLsb' 12 8 ++ w.extractLsb' 20 1 ++ w.extractLsb' 21 10 ++ 0#1 :=
  extractLsb'_signExtend _ (by decide)

theorem branchOffsetOk_branchOffset (w : Word) : branchOffsetOk (extract w).branchOffset = true := by
  rw [branchOffset_extract, branchOffsetOk, BitVec.getLsbD_append]
  rfl

/-- Bits 14:12 of a JAL offset are the funct3 field (R117). -/
theorem extractLsb'_jumpOffset_funct3 (w : Word) :
    (extract w).jumpOffset.extractLsb' 12 3 = w.extractLsb' 12 3 := by
  refine (congrArg (BitVec.extractLsb' (n := 1 + 8 + 1 + 10 + 1) 12 3) (jumpOffset_extract w)).trans ?_
  simp (disch := omega) only [BitVec.extractLsb'_append_eq_of_le, BitVec.extractLsb'_append_eq_of_add_le, Nat.reduceSub,
    extractLsb'_extractLsb', Nat.add_zero]

theorem jalOffsetOk_jumpOffset {w : Word} (h3 : w.extractLsb' 12 3 = 0#3) :
    jalOffsetOk (extract w).jumpOffset = true := by
  rw [jalOffsetOk, extractLsb'_jumpOffset_funct3, h3, jumpOffset_extract, BitVec.getLsbD_append]
  rfl

/-! ## The fields of a word make the word -/

section Word

variable {w : Word} {f7 : BitVec 7} {f3 : BitVec 3} {opc : BitVec 7} {imm : BitVec 12}

theorem encodeR_of_fields (h0 : w.extractLsb' 0 7 = opc) (h3 : w.extractLsb' 12 3 = f3) (h7 : w.extractLsb' 25 7 = f7) :
    encodeR f7 (extract w).rs2 (extract w).rs1 f3 (extract w).rd opc = w := by
  subst h0 h3 h7
  exact extract_word w

theorem encodeI_of_fields (h0 : w.extractLsb' 0 7 = opc) (h3 : w.extractLsb' 12 3 = f3) (himm : w.extractLsb' 20 12 = imm) :
    encodeI imm (extract w).rs1 f3 (extract w).rd opc = w := by
  subst h0 h3 himm
  simp only [encodeI, extract_rs1, extract_rd]
  repeat rw [BitVec.extractLsb'_append_extractLsb'_eq_extractLsb' (by rfl)]
  exact BitVec.extractLsb'_eq_self

theorem encodeS_of_fields (h0 : w.extractLsb' 0 7 = opc) (h3 : w.extractLsb' 12 3 = f3) :
    encodeS (extract w).storeImm (extract w).rs2 (extract w).rs1 f3 opc = w := by
  subst h0 h3
  rw [storeImm_extract, encodeS, BitVec.extractLsb'_append_eq_left, BitVec.extractLsb'_append_eq_right]
  exact extract_word w

theorem encodeB_of_fields (h0 : w.extractLsb' 0 7 = opc) (h3 : w.extractLsb' 12 3 = f3) :
    encodeB (extract w).branchOffset (extract w).rs2 (extract w).rs1 f3 opc = w := by
  subst h0 h3
  rw [branchOffset_extract, encodeB]
  simp (disch := omega) only [BitVec.extractLsb'_append_eq_of_le, BitVec.extractLsb'_append_eq_of_add_le, Nat.reduceSub,
    BitVec.extractLsb'_eq_self, extract_rs2, extract_rs1]
  repeat rw [BitVec.extractLsb'_append_extractLsb'_eq_extractLsb' (by rfl)]
  exact BitVec.extractLsb'_eq_self

theorem encodeU_of_fields (h0 : w.extractLsb' 0 7 = opc) : encodeU (extract w).upperImm (extract w).rd opc = w := by
  subst h0
  rw [upperImm_extract, encodeU, extract_rd]
  repeat rw [BitVec.extractLsb'_append_extractLsb'_eq_extractLsb' (by rfl)]
  exact BitVec.extractLsb'_eq_self

theorem encodeJ_of_fields (h0 : w.extractLsb' 0 7 = opc) : encodeJ (extract w).jumpOffset (extract w).rd opc = w := by
  subst h0
  rw [jumpOffset_extract, encodeJ]
  simp (disch := omega) only [BitVec.extractLsb'_append_eq_of_le, BitVec.extractLsb'_append_eq_of_add_le, Nat.reduceSub,
    BitVec.extractLsb'_eq_self, extract_rd]
  repeat rw [BitVec.extractLsb'_append_extractLsb'_eq_extractLsb' (by rfl)]
  exact BitVec.extractLsb'_eq_self

end Word

/-! ## The fields of an encoded word are the operands -/

section Slices

variable (start len : Nat) (f7 : BitVec 7) (rs2 rs1 : Reg) (f3 : BitVec 3) (rd : Reg) (opc : BitVec 7)

/-! A slice of an encoded word is a slice of the format's concatenation, whose width is the sum of its parts. -/

theorem extractLsb'_encodeR : (encodeR f7 rs2 rs1 f3 rd opc).extractLsb' start len =
    (f7 ++ rs2 ++ rs1 ++ f3 ++ rd ++ opc).extractLsb' start len := rfl

theorem extractLsb'_encodeI (imm : BitVec 12) : (encodeI imm rs1 f3 rd opc).extractLsb' start len =
    (imm ++ rs1 ++ f3 ++ rd ++ opc).extractLsb' start len := rfl

theorem extractLsb'_encodeS (imm : BitVec 12) : (encodeS imm rs2 rs1 f3 opc).extractLsb' start len =
    (imm.extractLsb' 5 7 ++ rs2 ++ rs1 ++ f3 ++ imm.extractLsb' 0 5 ++ opc).extractLsb' start len := rfl

theorem extractLsb'_encodeB (off : BitVec 13) : (encodeB off rs2 rs1 f3 opc).extractLsb' start len =
    (off.extractLsb' 12 1 ++ off.extractLsb' 5 6 ++ rs2 ++ rs1 ++ f3 ++ off.extractLsb' 1 4 ++ off.extractLsb' 11 1
      ++ opc).extractLsb' start len := rfl

theorem extractLsb'_encodeU (imm20 : BitVec 20) : (encodeU imm20 rd opc).extractLsb' start len =
    (imm20 ++ rd ++ opc).extractLsb' start len := rfl

theorem extractLsb'_encodeJ (off : BitVec 21) : (encodeJ off rd opc).extractLsb' start len =
    (off.extractLsb' 20 1 ++ off.extractLsb' 1 10 ++ off.extractLsb' 11 1 ++ off.extractLsb' 12 8 ++ rd
      ++ opc).extractLsb' start len := rfl

end Slices

section Operands

variable (f7 : BitVec 7) (rs2 rs1 : Reg) (f3 : BitVec 3) (rd : Reg) (opc : BitVec 7)

theorem operands_encodeR : let l := extract (encodeR f7 rs2 rs1 f3 rd opc)
    l.rd = rd ∧ l.rs1 = rs1 ∧ l.rs2 = rs2 := by
  simp (disch := omega) only [extract_rd, extract_rs1, extract_rs2, extractLsb'_encodeR, BitVec.extractLsb'_append_eq_of_le,
    BitVec.extractLsb'_append_eq_of_add_le, Nat.reduceSub, BitVec.extractLsb'_eq_self, and_self]

theorem operands_encodeI (imm : BitVec 12) : let l := extract (encodeI imm rs1 f3 rd opc)
    l.rd = rd ∧ l.rs1 = rs1 ∧ l.imm12 = imm := by
  simp (disch := omega) only [extract_rd, extract_rs1, imm12_extract, extractLsb'_encodeI, BitVec.extractLsb'_append_eq_of_le,
    BitVec.extractLsb'_append_eq_of_add_le, Nat.reduceSub, BitVec.extractLsb'_eq_self, and_self]

theorem operands_encodeS (imm : BitVec 12) : let l := extract (encodeS imm rs2 rs1 f3 opc)
    l.rs1 = rs1 ∧ l.rs2 = rs2 ∧ l.storeImm = imm := by
  simp (disch := omega) only [extract_rs1, extract_rs2, storeImm_extract, extractLsb'_encodeS,
    BitVec.extractLsb'_append_eq_of_le, BitVec.extractLsb'_append_eq_of_add_le, Nat.reduceSub, BitVec.extractLsb'_eq_self,
    true_and]
  rw [BitVec.extractLsb'_append_extractLsb'_eq_extractLsb' (by rfl)]
  exact BitVec.extractLsb'_eq_self

/-- An even number ends in a zero bit. -/
theorem extractLsb'_zero_one_eq_zero {n : Nat} {x : BitVec n} (h : x.getLsbD 0 = false) : x.extractLsb' 0 1 = 0#1 := by
  refine BitVec.eq_of_getLsbD_eq fun i hi => ?_
  obtain rfl : i = 0 := by omega
  simp [h]

theorem operands_encodeB {off : BitVec 13} (hoff : branchOffsetOk off = true) : let l := extract (encodeB off rs2 rs1 f3 opc)
    l.rs1 = rs1 ∧ l.rs2 = rs2 ∧ l.branchOffset = off := by
  have hbit : 0#1 = off.extractLsb' 0 1 := (extractLsb'_zero_one_eq_zero (by simpa [branchOffsetOk] using hoff)).symm
  simp (disch := omega) only [extract_rs1, extract_rs2, branchOffset_extract, extractLsb'_encodeB,
    BitVec.extractLsb'_append_eq_of_le, BitVec.extractLsb'_append_eq_of_add_le, Nat.reduceSub, BitVec.extractLsb'_eq_self,
    true_and, hbit]
  repeat rw [BitVec.extractLsb'_append_extractLsb'_eq_extractLsb' (by rfl)]
  exact BitVec.extractLsb'_eq_self

theorem operands_encodeU (imm20 : BitVec 20) : let l := extract (encodeU imm20 rd opc)
    l.rd = rd ∧ l.upperImm = imm20 := by
  simp (disch := omega) only [extract_rd, upperImm_extract, extractLsb'_encodeU, BitVec.extractLsb'_append_eq_of_le,
    BitVec.extractLsb'_append_eq_of_add_le, Nat.reduceSub, BitVec.extractLsb'_eq_self, and_self]

theorem operands_encodeJ {off : BitVec 21} (hoff : jalOffsetOk off = true) : let l := extract (encodeJ off rd opc)
    l.rd = rd ∧ l.jumpOffset = off := by
  rw [jalOffsetOk, Bool.and_eq_true, Bool.not_eq_true'] at hoff
  have hbit : 0#1 = off.extractLsb' 0 1 := (extractLsb'_zero_one_eq_zero hoff.1).symm
  simp (disch := omega) only [extract_rd, jumpOffset_extract, extractLsb'_encodeJ,
    BitVec.extractLsb'_append_eq_of_le, BitVec.extractLsb'_append_eq_of_add_le, Nat.reduceSub, BitVec.extractLsb'_eq_self,
    true_and, hbit]
  repeat rw [BitVec.extractLsb'_append_extractLsb'_eq_extractLsb' (by rfl)]
  exact BitVec.extractLsb'_eq_self

end Operands

end Sys2Proof.Machine
end

section
/-! The two round trips of the encoder and the decoder (spec/30). -/

namespace Sys2Proof.Machine

open Sys2Proof.Laws

/-- The encoding of a well-formed instruction lies in the row of its operation. -/
theorem matchesRow_encode (i : Instr) : RowMatch.Statement i := by
  cases i
  exacts [RowMatch.add _ _ _, RowMatch.sub _ _ _, RowMatch.xor _ _ _, RowMatch.or _ _ _, RowMatch.and _ _ _, RowMatch.sll _ _ _, RowMatch.srl _ _ _,
    RowMatch.sra _ _ _, RowMatch.slt _ _ _, RowMatch.sltu _ _ _, RowMatch.addi _ _ _, RowMatch.xori _ _ _, RowMatch.ori _ _ _,
    RowMatch.andi _ _ _, RowMatch.slli _ _ _, RowMatch.srli _ _ _, RowMatch.srai _ _ _, RowMatch.slti _ _ _, RowMatch.sltiu _ _ _,
    RowMatch.lb _ _ _, RowMatch.lh _ _ _, RowMatch.lw _ _ _, RowMatch.lbu _ _ _, RowMatch.lhu _ _ _, RowMatch.sb _ _ _, RowMatch.sh _ _ _,
    RowMatch.sw _ _ _, RowMatch.beq _ _ _, RowMatch.bne _ _ _, RowMatch.blt _ _ _, RowMatch.bge _ _ _, RowMatch.bltu _ _ _, RowMatch.bgeu _ _ _,
    RowMatch.jal _ _, RowMatch.jalr _ _ _, RowMatch.lui _ _, RowMatch.auipc _ _, RowMatch.ecall _ _, RowMatch.ebreak _ _]

/-- Every operand of a well-formed instruction is read back from its encoding. -/
theorem laneInstr_extract_encode {i : Instr} (h : i.wf = true) : laneInstr (extract (encode i)) i.tag = i := by
  cases i
  case beq | bne | blt | bge | bltu | bgeu =>
    simp only [laneInstr, Instr.tag, encode, operands_encodeB _ _ _ _ h]
  case jal => simp only [laneInstr, Instr.tag, encode, operands_encodeJ _ _ h]
  all_goals
    simp only [laneInstr, Instr.tag, encode, operands_encodeR, operands_encodeI, operands_encodeS, operands_encodeU]

/-- Settles O1: the encoding lies in the row of its operation, and each format keeps every bit of its operands. -/
theorem decodeOfEncodeIsTheInstruction : Obligations.DecodeOfEncodeIsTheInstruction := fun i hwf =>
  decodeLane_eq_instr_iff.mpr ⟨i.tag, rowOf_of_matchesRow (matchesRow_encode i hwf), laneInstr_extract_encode hwf⟩

variable {w : Word} {op : OpTag}

theorem wf_laneInstr (h : op.matchesRow w = true) : (laneInstr (extract w) op).wf = true := by
  rw [matchesRow_iff] at h
  cases op
  case beq | bne | blt | bge | bltu | bgeu => exact branchOffsetOk_branchOffset w
  case jal => exact jalOffsetOk_jumpOffset (h (12, 3) (by decide))
  all_goals rfl

theorem encode_laneInstr (h : op.matchesRow w = true) : encode (laneInstr (extract w) op) = w := by
  rw [matchesRow_iff] at h
  cases op
  all_goals simp only [fixedFields, List.forall_mem_cons] at h
  case add | sub | xor | or | and | sll | srl | sra | slt | sltu | slli | srli | srai =>
    exact encodeR_of_fields h.1 h.2.1 h.2.2.1
  case addi | xori | ori | andi | slti | sltiu | lb | lh | lw | lbu | lhu | jalr =>
    exact encodeI_of_fields h.1 h.2.1 (imm12_extract w).symm
  case sb | sh | sw => exact encodeS_of_fields h.1 h.2.1
  case beq | bne | blt | bge | bltu | bgeu => exact encodeB_of_fields h.1 h.2.1
  case jal => exact encodeJ_of_fields h.1
  case lui | auipc => exact encodeU_of_fields h.1
  case ecall | ebreak => exact encodeI_of_fields h.1 h.2.1 h.2.2.1

/-- Settles O2: a row fixes the bits that are no operand, and the formats put the operands back where they were read. -/
theorem encodeOfDecodeIsTheWord : Obligations.EncodeOfDecodeIsTheWord := by
  intro w i hdec
  obtain ⟨op, hrow, rfl⟩ := decodeLane_eq_instr_iff.mp hdec
  have hmatch := matchesRow_of_rowOf hrow
  exact ⟨wf_laneInstr hmatch, encode_laneInstr hmatch⟩

end Sys2Proof.Machine
end

section
/-! The reason of a rejected word (spec/42 R184): under which condition the tree fails with each reason. -/

namespace Sys2Proof.Machine

variable {l : Lane} {op : OpTag}

/-- The condition under which each test of R182 is the first that fails; the x0-write test comes after the row. -/
def failsFirst (l : Lane) : Reason → Prop
  | .opcode => l.opcode ∉ [0x33#7, 0x13#7, 0x03#7, 0x23#7, 0x63#7, 0x67#7, 0x6F#7, 0x37#7, 0x17#7, 0x73#7]
  | .funct3 =>
    (l.opcode = 0x03#7 ∧ l.funct3 ∉ loadRows.map Prod.fst) ∨ (l.opcode = 0x23#7 ∧ l.funct3 ∉ storeRows.map Prod.fst) ∨
      (l.opcode = 0x63#7 ∧ l.funct3 ∉ branchRows.map Prod.fst) ∨
      ((l.opcode = 0x67#7 ∨ l.opcode = 0x6F#7 ∨ l.opcode = 0x73#7) ∧ l.funct3 ≠ 0#3)
  | .funct7 => l.opcode = 0x33#7 ∧ (l.funct3, l.funct7) ∉ opRows.map Prod.fst
  | .shamtHigh =>
    l.opcode = 0x13#7 ∧ ((l.funct3 = 1#3 ∧ l.shamtHigh ≠ 0x00#7) ∨
      (l.funct3 = 5#3 ∧ l.shamtHigh ≠ 0x00#7 ∧ l.shamtHigh ≠ 0x20#7))
  | .imm => l.opcode = 0x73#7 ∧ l.funct3 = 0#3 ∧ l.immI ≠ 0#32 ∧ l.immI ≠ 1#32
  | .x0Write => False

/-- A map finds nothing for a key that its list does not have. -/
theorem eq_none_iff_notMem_keys {κ : Type} {rows : List (κ × OpTag)} {found : Option OpTag} {key : κ}
    (h : ∀ op, found = some op ↔ (key, op) ∈ rows) : found = none ↔ key ∉ rows.map Prod.fst := by
  simp [Option.eq_none_iff_forall_ne_some, h]

theorem shiftMap_eq_none_iff {f3 : BitVec 3} {high : BitVec 7} (h : f3 = 1#3 ∨ f3 = 5#3) : shiftMap f3 high = none ↔
    (f3 = 1#3 ∧ high ≠ 0x00#7) ∨ (f3 = 5#3 ∧ high ≠ 0x00#7 ∧ high ≠ 0x20#7) := by
  obtain rfl | rfl := h
  · simp [shiftMap]
  · simp [shiftMap, ite_eq_iff]

theorem rowOf_eq_error_iff (l : Lane) (r : Reason) : rowOf l = .error r ↔ failsFirst l r := by
  obtain hk | hk | hk | hk | hk | hk | hk | hk | hk | hk | hk := opcode_cases l
  · rw [rowOf_of_unknown hk]
    simp only [knownOpcodes, List.mem_cons, List.not_mem_nil, or_false, not_or, opcOp, opcOpImm, opcLoad, opcStore,
      opcBranch, opcJalr, opcJal, opcLui, opcAuipc, opcSystem] at hk
    cases r <;> simp [failsFirst, hk]
  · rw [rowOf_of_op hk, rowFound_eq_error_iff, eq_none_iff_notMem_keys fun _ => rMap_eq_some_iff]
    cases r <;> simp [failsFirst, hk]
  · rw [rowOf_of_opImm hk]
    split
    · next h3 =>
      rw [rowFound_eq_error_iff, shiftMap_eq_none_iff h3]
      cases r <;> simp [failsFirst, hk]
    · next h3 =>
      rw [not_or] at h3
      cases r <;> simp [failsFirst, hk, h3]
  · rw [rowOf_of_load hk, rowFound_eq_error_iff, eq_none_iff_notMem_keys fun _ => loadMap_eq_some_iff]
    cases r <;> simp [failsFirst, hk]
  · rw [rowOf_of_store hk, rowFound_eq_error_iff, eq_none_iff_notMem_keys fun _ => storeMap_eq_some_iff]
    cases r <;> simp [failsFirst, hk]
  · rw [rowOf_of_branch hk, rowFound_eq_error_iff, eq_none_iff_notMem_keys fun _ => branchMap_eq_some_iff]
    cases r <;> simp [failsFirst, hk]
  · rw [rowOf_of_jalr hk]
    by_cases h3 : l.funct3 = 0#3 <;> cases r <;> simp [failsFirst, hk, h3]
  · rw [rowOf_of_jal hk]
    by_cases h3 : l.funct3 = 0#3 <;> cases r <;> simp [failsFirst, hk, h3]
  · rw [rowOf_of_lui hk]
    cases r <;> simp [failsFirst, hk]
  · rw [rowOf_of_auipc hk]
    cases r <;> simp [failsFirst, hk]
  · rw [rowOf_of_system hk]
    split_ifs <;> cases r <;> simp_all [failsFirst]

/-- The operations that write rd are those of every opcode but three (R185). -/
theorem writesRd_iff_of_matchesRow {w : Word} (h : op.matchesRow w = true) :
    op.cls.writesRd = true ↔ w.extractLsb' 0 7 ∉ [0x23#7, 0x63#7, 0x73#7] := by
  have hopc : w.extractLsb' 0 7 = op.matchBits.extractLsb' 0 7 :=
    matchesRow_iff.mp h (0, 7) (by cases op <;> decide)
  rw [hopc]
  cases op <;> decide

/-- The x0-write test is reached exactly when no other test fails. -/
theorem classify_extract_eq_x0Write_iff (w : Word) : classify (extract w) = .reject .x0Write ↔
    (∀ r, ¬failsFirst (extract w) r) ∧ w.extractLsb' 0 7 ∉ [0x23#7, 0x63#7, 0x73#7] ∧ w.extractLsb' 7 5 = 0#5 := by
  rw [classify_eq_x0Write_iff]
  simp only [← rowOf_eq_error_iff]
  cases hrow : rowOf (extract w) with
  | error r => simp
  | ok op =>
    rw [← writesRd_iff_of_matchesRow (matchesRow_of_rowOf hrow)]
    simp

/-- Settles O6: each reason of the row is its first failed test, and the x0-write test comes last. -/
theorem rejectionReasonIsTheFirstFailedTest : Obligations.RejectionReasonIsTheFirstFailedTest := by
  intro w opc f3 f7 known badFunct3 badFunct7 badShamt badImm writes
  have reason : ∀ r ≠ .x0Write, (classify (extract w) = .reject r ↔ failsFirst (extract w) r) := fun r hr =>
    (classify_eq_reject_iff hr).trans (rowOf_eq_error_iff _ r)
  have hshamt : failsFirst (extract w) .shamtHigh ↔ badShamt := by
    rw [failsFirst, shamtHigh_extract]; rfl
  refine ⟨reason .opcode (by decide), reason .funct3 (by decide), reason .funct7 (by decide),
    (reason .shamtHigh (by decide)).trans hshamt, reason .imm (by decide), ?_⟩
  rw [classify_extract_eq_x0Write_iff]
  have hall : (∀ r, ¬failsFirst (extract w) r) ↔ known ∧ ¬badFunct3 ∧ ¬badFunct7 ∧ ¬badShamt ∧ ¬badImm := by
    constructor
    · intro h
      exact ⟨not_not.mp (h .opcode), h .funct3, h .funct7, fun hb => h .shamtHigh (hshamt.mpr hb), h .imm⟩
    · rintro ⟨hopc, h3, h7, hb, himm⟩ (_ | _ | _ | _ | _ | _)
      exacts [not_not.mpr hopc, h3, h7, fun h => hb (hshamt.mp h), himm, id]
  rw [hall]
  tauto

end Sys2Proof.Machine
end

section
/-! The source's formula of `imm_j` (spec/41 R158), and the bits that fields and immediates share (R163). -/

namespace Sys2Proof

/-- A mask away from bit 0 keeps a slice where it is. -/
theorem sshiftRight_and_shifted_lowMask {w : Nat} (x : BitVec w) (start k len : Nat) (h : start + k + len ≤ w) :
    x.sshiftRight start &&& (BitVec.ofNat w (2 ^ len - 1) <<< k) = (x.extractLsb' (start + k) len).setWidth w <<< k := by
  refine BitVec.eq_of_getLsbD_eq fun i hi => ?_
  rw [BitVec.getLsbD_and, BitVec.getLsbD_shiftLeft, BitVec.getLsbD_shiftLeft, getLsbD_lowMask, BitVec.getLsbD_sshiftRight]
  by_cases hk : i < k
  · simp [hk]
  · by_cases hlen : i - k < len
    · have hin : start + i < w := by omega
      have hpos : start + k + (i - k) = start + i := by omega
      simp [hi, hi.not_ge, hk, hlen, hin, hpos, Bool.and_comm]
    · simp [hlen]

theorem immJ_eq_sourceImmJ (w : Word) : immJ w = sourceImmJ w := by
  have sign : w.sshiftRight 11 &&& ~~~0xfffff#32 = w.sshiftRight 31 <<< 20 := sshiftRight_and_not_lowMask w 11 20
  have mid : w.sshiftRight 0 &&& 0xff000#32 = (w.extractLsb' 12 8).setWidth 32 <<< 12 :=
    sshiftRight_and_shifted_lowMask w 0 12 8 (by decide)
  have bit11 : w.sshiftRight 9 &&& 0x800#32 = (w.extractLsb' 20 1).setWidth 32 <<< 11 :=
    sshiftRight_and_shifted_lowMask w 9 11 1 (by decide)
  have lo : w.sshiftRight 20 &&& 0x7fe#32 = (w.extractLsb' 21 10).setWidth 32 <<< 1 :=
    sshiftRight_and_shifted_lowMask w 20 1 10 (by decide)
  rw [BitVec.sshiftRight_zero] at mid
  rw [sourceImmJ, sign, mid, bit11, lo, immJ]
  repeat rw [signExtend_append _ _ (by decide)]
  rw [signExtend_extractLsb'_eq_sshiftRight w rfl (by decide)]
  simp [BitVec.shiftLeft_or_distrib, ← BitVec.shiftLeft_add]

theorem toInt_immJ (w : Word) : (immJ w).toInt =
    2 * (w.extractLsb' 31 1 ++ w.extractLsb' 12 8 ++ w.extractLsb' 20 1 ++ w.extractLsb' 21 10).toInt :=
  (BitVec.toInt_signExtend_of_le (by decide)).trans BitVec.toInt_append_zero

theorem immJ_bounds (w : Word) : -1048576 ≤ (immJ w).toInt ∧ (immJ w).toInt ≤ 1048574 := by
  have lower : -524288 ≤
      (w.extractLsb' 31 1 ++ w.extractLsb' 12 8 ++ w.extractLsb' 20 1 ++ w.extractLsb' 21 10).toInt := BitVec.le_toInt _
  have upper :
      (w.extractLsb' 31 1 ++ w.extractLsb' 12 8 ++ w.extractLsb' 20 1 ++ w.extractLsb' 21 10).toInt ≤ 524287 :=
    BitVec.toInt_le
  rw [toInt_immJ]
  omega

theorem getLsbD_zero_immJ (w : Word) : (immJ w).getLsbD 0 = false := by
  rw [immJ, BitVec.getLsbD_signExtend, BitVec.getLsbD_append]
  rfl

/-! ## The sign of an immediate is bit 31 of its word -/

theorem toInt_signExtend_neg_iff {n v : Nat} (x : BitVec n) (h : n ≤ v) : (x.signExtend v).toInt < 0 ↔ x.msb = true := by
  rw [BitVec.toInt_signExtend_of_le h, BitVec.msb_eq_toInt, decide_eq_true_eq]

/-- The top bit of a concatenation whose first slice ends at bit 31. -/
theorem msb_append_pos {m n : Nat} (x : BitVec m) (y : BitVec n) (h : 0 < m) : (x ++ y).msb = x.msb := by
  rw [BitVec.msb_append, if_neg h.ne']

theorem msb_extractLsb'_to_top (w : Word) {start len : Nat} (h : start + len = 32) (hlen : 0 < len) :
    (w.extractLsb' start len).msb = w.getLsbD 31 := by
  have hlast : start + (len - 1) = 31 := by omega
  simp [BitVec.msb_eq_getLsbD_last, hlast, hlen]

theorem immI_neg_iff (w : Word) : (immI w).toInt < 0 ↔ w.getLsbD 31 = true := by
  rw [immI, toInt_signExtend_neg_iff _ (by decide), msb_extractLsb'_to_top w rfl (by decide)]

theorem immS_neg_iff (w : Word) : (immS w).toInt < 0 ↔ w.getLsbD 31 = true := by
  rw [immS, toInt_signExtend_neg_iff _ (by decide), msb_append_pos _ _ (by decide), msb_extractLsb'_to_top w rfl (by decide)]

theorem immB_neg_iff (w : Word) : (immB w).toInt < 0 ↔ w.getLsbD 31 = true := by
  rw [immB, toInt_signExtend_neg_iff _ (by decide)]
  repeat rw [msb_append_pos _ _ (by decide)]
  rw [msb_extractLsb'_to_top w rfl (by decide)]

theorem immJ_neg_iff (w : Word) : (immJ w).toInt < 0 ↔ w.getLsbD 31 = true := by
  rw [immJ, toInt_signExtend_neg_iff _ (by decide)]
  repeat rw [msb_append_pos _ _ (by decide)]
  rw [msb_extractLsb'_to_top w rfl (by decide)]

end Sys2Proof

namespace Sys2Proof.Machine

/-! ## The fields inside the immediates -/

theorem immI_low_eq_rs2 (w : Word) : (immI w).extractLsb' 0 5 = w.extractLsb' 20 5 := by
  have h : (immI w).extractLsb' 0 5 = (extract w).imm12.extractLsb' 0 5 :=
    (BitVec.extractLsb'_extractLsb'_of_le (by decide)).symm
  rw [h, imm12_extract, extractLsb'_extractLsb' w 20 12 (by decide)]

theorem immS_low_eq_rd (w : Word) : (immS w).extractLsb' 0 5 = w.extractLsb' 7 5 := by
  have h : (immS w).extractLsb' 0 5 = (extract w).storeImm.extractLsb' 0 5 :=
    (BitVec.extractLsb'_extractLsb'_of_le (by decide)).symm
  rw [h, storeImm_extract, BitVec.extractLsb'_append_eq_right]

/-- Settles O12: the source formula, and the range of twice a twenty-bit value. -/
theorem immediateJIsSignExtended : Obligations.ImmediateJIsSignExtended := by
  refine ⟨fun w => ⟨immJ_eq_sourceImmJ w, rfl, ?_, immJ_bounds w⟩, by decide⟩
  rw [extract_immJ, toInt_immJ]
  exact Int.mul_emod_right 2 _

/-- Settles O13: each immediate holds the slices it is made of, and bit 31 of the word is its top slice. -/
theorem immediatesShareTheFieldsBits : Obligations.ImmediatesShareTheFieldsBits := by
  intro w
  refine ⟨shamtHigh_extract w, rfl, immI_low_eq_rs2 w, rfl, immS_low_eq_rd w, getLsbD_zero_immB w, getLsbD_zero_immJ w,
    BitVec.extractLsb'_append_eq_right, ?_⟩
  simp only [List.forall_mem_cons]
  exact ⟨immI_neg_iff w, immS_neg_iff w, immB_neg_iff w, immJ_neg_iff w, List.forall_mem_nil _⟩

end Sys2Proof.Machine
end

section
/-! The meaning of the instruction a lane holds (spec/42 R186 to R191), in the terms of the lane: dropped for the x0-write test, or
accepted with the registers and the immediate of its class. -/

namespace Sys2Proof.Machine

variable {l : Lane} {i : Instr} {op : OpTag} {w : Word}

/-- The immediate that the instruction `laneInstr l op` records, from its own operand field. -/
def operandImm (l : Lane) (op : OpTag) : Imm :=
  match op with
  | .slli | .srli => immOfShift 0x00#7 l.rs2
  | .srai => immOfShift 0x20#7 l.rs2
  | .ecall => 0#32
  | .ebreak => 1#32
  | _ =>
    match op.cls with
    | .store => immOf12 l.storeImm
    | .branch => immOfBranch l.branchOffset
    | .upper => immOfUpper l.upperImm
    | .jumpLink => immOfJump l.jumpOffset
    | .rtype => 0#32
    | _ => immOf12 l.imm12

/-- A writing operation's meaning tests the lane's rd, every other accepts. -/
theorem exec_laneInstr (l : Lane) (op : OpTag) (s : State) : exec (laneInstr l op) s = .next
    (if op.cls.writesRd = true then s.acceptWriting l.rd op (packOf op.cls l) (operandImm l op)
     else s.acceptLane op (packOf op.cls l) (operandImm l op)) := by
  cases op <;> rfl

theorem exec_of_decodeLane (h : decodeLane l = .instr i) (s : State) : exec i s = .next
    (if i.tag.cls.writesRd = true then s.acceptWriting l.rd i.tag (packOf i.tag.cls l) (operandImm l i.tag)
     else s.acceptLane i.tag (packOf i.tag.cls l) (operandImm l i.tag)) := by
  rw [← exec_laneInstr, (rowOf_tag_of_decodeLane h).2]

theorem immOf12_storeImm (w : Word) : immOf12 (extract w).storeImm = immS w :=
  congrArg immOf12 (extractLsb'_signExtend _ (by decide))

theorem immOfBranch_branchOffset (w : Word) : immOfBranch (extract w).branchOffset = immB w :=
  congrArg immOfBranch (extractLsb'_signExtend _ (by decide))

/-- R256: the whole `imm_i` of a shift is its two fields. -/
theorem immOfShift_fields {high : BitVec 7} (h : w.extractLsb' 25 7 = high) : immOfShift high (extract w).rs2 = immI w := by
  subst h
  rw [immOfShift, immI, extract_rs2, BitVec.extractLsb'_append_extractLsb'_eq_extractLsb' (by rfl)]

/-- In its own row an operation records the lane's immediate of its class (R187). -/
theorem operandImm_extract (h : op.matchesRow w = true) : operandImm (extract w) op = immOf op.cls (extract w) := by
  rw [matchesRow_iff] at h
  cases op
  case slli | srli | srai => exact immOfShift_fields (h (25, 7) (by decide))
  case addi | xori | ori | andi | slti | sltiu | lb | lh | lw | lbu | lhu | jalr => exact immOf12_imm12 w
  case sb | sh | sw => exact immOf12_storeImm w
  case beq | bne | blt | bge | bltu | bgeu => exact immOfBranch_branchOffset w
  case jal => exact immOfJump_jumpOffset w
  case lui | auipc => exact immOfUpper_upperImm w
  case ecall => exact (immI_eq_zero_iff.mpr (h (20, 12) (by decide))).symm
  case ebreak => exact (immI_eq_one_iff.mpr (h (20, 12) (by decide))).symm
  all_goals rfl

/-! ## A step at a lane, from the operation of its row -/

variable {s : State}

theorem laneWrites_of_rowOf (h : rowOf (extract w) = .ok op) (hw : op.cls.writesRd = true) :
    LaneWrites (extract w) op (packOf op.cls (extract w)) (immOf op.cls (extract w)) := by
  refine ⟨laneInstr (extract w) op, decodeLane_eq_instr_iff.mpr ⟨op, h, rfl⟩, fun s => ?_⟩
  rw [exec_laneInstr, if_pos hw, operandImm_extract (matchesRow_of_rowOf h)]

theorem step_of_rowOf (h : rowOf (extract w) = .ok op) (hw : op.cls.writesRd = false) (hs : s.AtWord w)
    (hroom : s.block.hasRoom) :
    step s = .next (s.recorded op (packOf op.cls (extract w)) (immOf op.cls (extract w))).afterLane := by
  refine step_of_accept hs (decodeLane_eq_instr_iff.mpr ⟨op, h, rfl⟩) ?_ hroom
  rw [exec_laneInstr, if_neg (by simp [hw]), operandImm_extract (matchesRow_of_rowOf h)]

theorem step_of_failsFirst {r : Reason} (hs : s.AtWord w) (h : failsFirst (extract w) r) :
    step s = .next (s.dropped w r).afterLane :=
  step_of_reject hs (decodeLane_eq_reject_iff.mpr ((rowOf_eq_error_iff _ r).mpr h))

end Sys2Proof.Machine
end

section
/-! The lane statements of OP-IMM, LOAD, STORE and BRANCH, of an unknown opcode, and the two outcomes of a meaning that append
nothing. -/

namespace Sys2Proof.Machine

variable {w : Word} {op : OpTag}

theorem laneWrites_of_opImm (hopc : w.extractLsb' 0 7 = opcOpImm)
    (h : (w.extractLsb' 12 3, op) ∈ immRows ∨ ((w.extractLsb' 12 3, w.extractLsb' 25 7), op) ∈ shiftRows) :
    LaneWrites (extract w) op (packRegs (w.extractLsb' 7 5) (w.extractLsb' 15 5) 0) (immI w) := by
  have hrow : rowOf (extract w) = .ok op := by
    rw [rowOf_eq_ok_iff_of_opImm hopc, shamtHigh_extract]
    exact h
  have hcls : op.cls = .ialu := by
    obtain h | h := h
    · exact (by decide : ∀ row ∈ immRows, row.2.cls = .ialu) _ h
    · exact (by decide : ∀ row ∈ shiftRows, row.2.cls = .ialu) _ h
  have hwrites := laneWrites_of_rowOf hrow (by rw [hcls]; rfl)
  rwa [hcls] at hwrites

/-- Outside the two lists only shamt-high can have failed. -/
theorem failsFirst_shamtHigh_of_opImm (hopc : w.extractLsb' 0 7 = opcOpImm)
    (h : ∀ op, ¬((w.extractLsb' 12 3, op) ∈ immRows ∨ ((w.extractLsb' 12 3, w.extractLsb' 25 7), op) ∈ shiftRows)) :
    failsFirst (extract w) .shamtHigh := by
  cases hrow : rowOf (extract w) with
  | ok op =>
    rw [rowOf_eq_ok_iff_of_opImm hopc, shamtHigh_extract] at hrow
    exact absurd hrow (h op)
  | error r =>
    rw [rowOf_eq_error_iff] at hrow
    have hopc' : w.extractLsb' 0 7 = 0x13#7 := hopc
    cases r
    case shamtHigh => exact hrow
    all_goals simp [failsFirst, hopc'] at hrow

/-- Settles O37: the two lists of the statement are the rows of OP-IMM. -/
theorem opImmLaneFollowsFunct3 : Obligations.OpImmLaneFollowsFunct3 := fun _ _ hs hopc =>
  ⟨fun _ hfound => (laneWrites_of_opImm hopc hfound).step_of_hasRoom hs,
    fun _ hfound => (laneWrites_of_opImm hopc hfound).step_of_x0 hs,
    fun hno => step_of_failsFirst hs (failsFirst_shamtHigh_of_opImm hopc hno)⟩

theorem laneWrites_of_load (hopc : w.extractLsb' 0 7 = opcLoad) (h : (w.extractLsb' 12 3, op) ∈ loadRows) :
    LaneWrites (extract w) op (packRegs (w.extractLsb' 7 5) (w.extractLsb' 15 5) 0) (immI w) := by
  have hcls : op.cls = .load := (by decide : ∀ row ∈ loadRows, row.2.cls = .load) _ h
  have hwrites := laneWrites_of_rowOf ((rowOf_eq_ok_iff_of_load hopc).mpr h) (by rw [hcls]; rfl)
  rwa [hcls] at hwrites

/-- Settles O38: the list of the statement is the rows of LOAD, and the other funct3 values are in none. -/
theorem loadLaneFollowsFunct3 : Obligations.LoadLaneFollowsFunct3 := fun _ w hs hopc =>
  ⟨fun _ hmem => (laneWrites_of_load hopc hmem).step_of_hasRoom hs,
    fun _ hmem => (laneWrites_of_load hopc hmem).step_of_x0 hs,
    fun hno => step_of_failsFirst hs
      (.inl ⟨hopc, (by decide : ∀ f3 ∈ [3#3, 6#3, 7#3], f3 ∉ loadRows.map Prod.fst) _ hno⟩)⟩

variable {s : State}

theorem step_of_store (hs : s.AtWord w) (hopc : w.extractLsb' 0 7 = opcStore) (h : (w.extractLsb' 12 3, op) ∈ storeRows)
    (hroom : s.block.hasRoom) :
    step s = .next (s.recorded op (packRegs 0 (w.extractLsb' 15 5) (w.extractLsb' 20 5)) (immS w)).afterLane := by
  have hcls : op.cls = .store := (by decide : ∀ row ∈ storeRows, row.2.cls = .store) _ h
  have hstep := step_of_rowOf ((rowOf_eq_ok_iff_of_store hopc).mpr h) (by rw [hcls]; rfl) hs hroom
  rwa [hcls] at hstep

/-- Settles O39: the list of the statement is the rows of STORE, the other funct3 values are in none, and the example word is a
lane of the first kind. -/
theorem storeLaneFollowsFunct3 : Obligations.StoreLaneFollowsFunct3 :=
  ⟨fun _ _ hs hopc =>
    ⟨fun _ hmem => step_of_store hs hopc hmem,
      fun hno => step_of_failsFirst hs
        (.inr (.inl ⟨hopc, (by decide : ∀ f3 ∈ [3#3, 4#3, 5#3, 6#3, 7#3], f3 ∉ storeRows.map Prod.fst) _ hno⟩))⟩,
    fun _ hs => step_of_store hs (by decide) (by decide)⟩

theorem step_of_branch (hs : s.AtWord w) (hopc : w.extractLsb' 0 7 = opcBranch)
    (h : (w.extractLsb' 12 3, op) ∈ branchRows) (hroom : s.block.hasRoom) :
    step s = .next (s.recorded op (packRegs 0 (w.extractLsb' 15 5) (w.extractLsb' 20 5)) (immB w)).afterLane := by
  have hcls : op.cls = .branch := (by decide : ∀ row ∈ branchRows, row.2.cls = .branch) _ h
  have hstep := step_of_rowOf ((rowOf_eq_ok_iff_of_branch hopc).mpr h) (by rw [hcls]; rfl) hs hroom
  rwa [hcls] at hstep

/-- Settles O40: the list of the statement is the rows of BRANCH, the other funct3 values are in none, and the example word is a
lane of the first kind. -/
theorem branchLaneFollowsFunct3 : Obligations.BranchLaneFollowsFunct3 :=
  ⟨fun _ _ hs hopc =>
    ⟨fun _ hmem => step_of_branch hs hopc hmem,
      fun hno => step_of_failsFirst hs
        (.inr (.inr (.inl ⟨hopc, (by decide : ∀ f3 ∈ [2#3, 3#3], f3 ∉ branchRows.map Prod.fst) _ hno⟩)))⟩,
    fun _ hs => step_of_branch hs (by decide) (by decide)⟩

/-- Settles O60: the opcode test is the first of the tree. -/
theorem unknownOpcodeLaneIsDropped : Obligations.UnknownOpcodeLaneIsDropped := fun _ _ hs hopc =>
  step_of_failsFirst (r := .opcode) hs hopc

/-- Settles O31: the meaning tests the lane's rd, and the lane's word ends in its opcode. -/
theorem writingToX0DropsTheLane : Obligations.WritingToX0DropsTheLane := by
  intro i s l hl hdec hrd hw
  have hopc : l.word.extractLsb' 0 7 = l.opcode := BitVec.extractLsb'_append_eq_right
  rw [exec_of_decodeLane hdec, if_pos hw, hrd, acceptWriting_of_x0]
  simp [State.dropLane, State.dropped, Stage1.laneAt, hl, diagOf, Block.emit, hopc]

/-- Settles O32: either form of meaning accepts the lane, which finds no room. -/
theorem fullColumnsFaultOnAcceptance : Obligations.FullColumnsFaultOnAcceptance := by
  intro i s l hroom hdec hrd
  have hfull : s.block.full = true := by
    rw [← Bool.not_eq_false, full_eq_false_iff]
    exact hroom
  rw [exec_of_decodeLane hdec]
  split
  · next hw => rw [acceptWriting_of_ne (hrd hw), acceptLane_of_full hfull, Block.markFault]
  · rw [acceptLane_of_full hfull, Block.markFault]

end Sys2Proof.Machine
end

section
/-! What each instruction's meaning records when its lane is accepted (spec/43 to spec/49), and what any meaning can change. -/

namespace Sys2Proof.Machine

variable {s : State}

/-- A meaning that accepts its lane, in columns with room. -/
theorem next_acceptLane (hroom : s.block.hasRoom) (op : OpTag) (regs : Packed) (imm : Imm) :
    (.next (s.acceptLane op regs imm) : Host.Outcome State Fault Refusal) = .next (s.recorded op regs imm) := by
  rw [acceptLane_of_hasRoom hroom]

/-- A writing meaning, whose rd is not x0, in columns with room. -/
theorem next_acceptWriting {rd : Reg} (hrd : rd ≠ 0#5) (hroom : s.block.hasRoom) (op : OpTag) (regs : Packed) (imm : Imm) :
    (.next (s.acceptWriting rd op regs imm) : Host.Outcome State Fault Refusal) = .next (s.recorded op regs imm) := by
  rw [acceptWriting_of_ne hrd, acceptLane_of_hasRoom hroom]

/-- The shift amount alone, when shamt-high is zero. -/
theorem immOfShift_zero : ∀ shamt : BitVec 5, immOfShift 0x00#7 shamt = shamt.setWidth 32 := by
  decide

/-- R256: `srai` records `0x400 + shamt`. -/
theorem immOfShift_srai : ∀ shamt : BitVec 5, immOfShift 0x20#7 shamt = 0x400#32 + shamt.setWidth 32 := by
  decide

theorem immOfUpper_eq_shiftLeft (imm20 : BitVec 20) : immOfUpper imm20 = imm20.setWidth 32 <<< 12 := by
  refine BitVec.eq_of_getLsbD_eq fun i hi => ?_
  rw [immOfUpper, BitVec.getLsbD_append, BitVec.getLsbD_shiftLeft, BitVec.getLsbD_setWidth]
  by_cases h : i < 12
  · simp [h]
  · have hin : i - 12 < 32 := by omega
    simp [h, hi, hin]

/-- Settles O25: each operation's `exec` is `acceptWriting` with its own operands. -/
theorem rTypeRecordsItsEntry : Obligations.RTypeRecordsItsEntry := by
  intro rd rs1 rs2 s hrd hroom
  have accept := next_acceptWriting hrd hroom
  exact ⟨accept .add _ _, accept .sub _ _, accept .sll _ _, accept .slt _ _, accept .sltu _ _, accept .xor _ _,
    accept .srl _ _, accept .sra _ _, accept .or _ _, accept .and _ _⟩

/-- Settles O26: the shifts record their own form of the immediate. -/
theorem opImmRecordsItsEntry : Obligations.OpImmRecordsItsEntry := by
  intro rd rs1 imm shamt s hrd hroom
  have accept := next_acceptWriting hrd hroom
  rw [← immOfShift_srai, ← immOfShift_zero]
  exact ⟨accept .addi _ _, accept .slti _ _, accept .sltiu _ _, accept .xori _ _, accept .ori _ _, accept .andi _ _,
    accept .slli _ _, accept .srli _ _, accept .srai _ _⟩

/-- Settles O27. -/
theorem loadsRecordTheirEntry : Obligations.LoadsRecordTheirEntry := by
  intro rd rs1 imm s hrd hroom
  have accept := next_acceptWriting hrd hroom
  exact ⟨accept .lb _ _, accept .lh _ _, accept .lw _ _, accept .lbu _ _, accept .lhu _ _⟩

/-- Settles O28: these operations write no register, so the x0 test does not come up. -/
theorem storesAndBranchesRecordTheirEntry : Obligations.StoresAndBranchesRecordTheirEntry := by
  intro rs1 rs2 imm off s hroom
  have accept := next_acceptLane hroom
  exact ⟨accept .sb _ _, accept .sh _ _, accept .sw _ _, accept .beq _ _, accept .bne _ _, accept .blt _ _, accept .bge _ _,
    accept .bltu _ _, accept .bgeu _ _⟩

/-- Settles O29. -/
theorem jumpsAndUpperRecordTheirEntry : Obligations.JumpsAndUpperRecordTheirEntry := by
  intro rd rs1 imm off imm20 s hrd hroom
  have accept := next_acceptWriting hrd hroom
  rw [← immOfUpper_eq_shiftLeft]
  exact ⟨accept .jalr _ _, accept .jal _ _, accept .lui _ _, accept .auipc _ _⟩

/-- Settles O30. -/
theorem systemRecordsItsEntry : Obligations.SystemRecordsItsEntry := fun _ _ _ hroom =>
  ⟨next_acceptLane hroom .ecall _ _, next_acceptLane hroom .ebreak _ _⟩

/-- Settles O33: a meaning drops its lane or accepts it, and an accepted lane is appended or finds the columns full. -/
theorem everyInstructionChangesOnlyItsOutputs : Obligations.EveryInstructionChangesOnlyItsOutputs := by
  intro i s
  obtain ⟨t, hexec, rfl | ⟨op, regs, imm, rfl⟩⟩ := exec_cases i s
  · exact ⟨_, hexec, rfl, rfl, rfl, rfl, fun _ => rfl, .inr (.inl ⟨_, rfl, rfl, rfl, rfl⟩)⟩
  · refine ⟨_, hexec, ?_⟩
    obtain ⟨-, h⟩ | ⟨-, h⟩ := acceptLane_cases s op regs imm <;> rw [h]
    · exact ⟨rfl, rfl, rfl, rfl, fun _ => rfl, .inl ⟨_, _, _, _, rfl, rfl, rfl, rfl⟩⟩
    · exact ⟨rfl, rfl, rfl, rfl, fun _ => rfl, .inr (.inr ⟨rfl, rfl, rfl, rfl⟩)⟩

/-! ## A step of a call -/

theorem decodeBytes_eq_decode (b0 b1 b2 b3 : Byte) :
    decodeBytes [b0, b1, b2, b3] = decode (wordOfBytes b0 b1 b2 b3) := rfl

/-- A word is read back from its four bytes in DRAM order. -/
theorem wordOfBytes_bytesOfWord (w : Word) :
    wordOfBytes (w.extractLsb' 0 8) (w.extractLsb' 8 8) (w.extractLsb' 16 8) (w.extractLsb' 24 8) = w := by
  unfold wordOfBytes
  repeat rw [BitVec.extractLsb'_append_extractLsb'_eq_extractLsb' (by rfl)]
  exact BitVec.extractLsb'_eq_self

theorem decode_of_decodeTableWord {nbits w : Nat} {i : Instr} (h : decodeTableWord nbits w = some i) :
    decode (tableWord nbits w) = .instr i := by
  rw [decodeTableWord, bytesOfWord, decodeBytes_eq_decode, wordOfBytes_bytesOfWord] at h
  split at h
  · next hdec => cases h; exact hdec
  · cases h
  · cases h

theorem withFetchWord_atWord (hf : s.block.fault = none) (w : Nat) :
    (s.withFetchWord 32 w).AtWord (tableWord 32 w) :=
  ⟨hf, rfl, rfl⟩

/-- Settles O34: the bytes and the table word make the word the lane holds. -/
theorem stepRunsTheDecodedInstruction : Obligations.StepRunsTheDecodedInstruction :=
  ⟨fun _ _ _ _ hs hdec hexec => step_of_instr hs hdec hexec,
    fun _ _ _ _ _ _ _ hs hdec hexec => step_of_instr hs hdec hexec,
    fun _ _ w _ hf hdec hexec => step_of_instr (withFetchWord_atWord hf w) (decode_of_decodeTableWord hdec) hexec⟩

theorem afterLane_of_fault {f : Fault} (h : s.block.fault = some f) :
    s.afterLane = { s with busy := false, lane := 0, responses := s.responses ++ [.faulted f] } := by
  simp [State.afterLane, h, State.respond]

theorem afterLane_of_lt (h : s.block.fault = none) (hlane : s.lane < s.block.params.batchN) : s.afterLane = s := by
  simp [State.afterLane, h, hlane]

theorem afterLane_of_le (h : s.block.fault = none) (hlane : s.block.params.batchN ≤ s.lane) :
    s.afterLane = { s with busy := false, lane := 0, responses := s.responses ++ [.done] } := by
  simp [State.afterLane, h, hlane.not_gt, State.respond]

/-- Settles O35: the three branches of `afterLane`. -/
theorem callGoesOnUntilTheLastLane : Obligations.CallGoesOnUntilTheLastLane := fun _ =>
  ⟨fun _ => afterLane_of_fault, afterLane_of_lt, afterLane_of_le⟩

/-- Settles O3: every word of the list is decoded. -/
theorem sampleWordsDecode : Obligations.SampleWordsDecode := by
  unfold Obligations.SampleWordsDecode
  decide

end Sys2Proof.Machine
end

section
/-! DRAM accesses (spec/20 R62 to R65): the value of a load as a sum of bytes, what a store leaves, and what the two transactions
answer in each case. -/

namespace Sys2Proof.Machine

variable {b : Block} {w : Width} {a : Nat} {v : Value} {off n : Nat}

/-! ## The value of a load -/

theorem sumBytes_eq_sum (b : Block) (off n : Nat) :
    b.sumBytes off n = (Finset.range n).sum fun k => (b.byteAt (off + k)).toNat * 2 ^ (8 * k) := by
  induction n with
  | zero => rfl
  | succ n ih => rw [Block.sumBytes, Finset.sum_range_succ, ih]

/-- A sum of the bytes of a number is what its low bytes make. -/
theorem sumBytes_of_bytes {N : Nat} (x : BitVec N) (h : ∀ k < n, b.byteAt (off + k) = x.extractLsb' (8 * k) 8) :
    b.sumBytes off n = x.toNat % 2 ^ (8 * n) := by
  induction n with
  | zero => simp [Block.sumBytes, Nat.mod_one]
  | succ n ih =>
    have hbyte : (b.byteAt (off + n)).toNat = x.toNat / 2 ^ (8 * n) % 2 ^ 8 := by
      rw [h n n.lt_succ_self, BitVec.extractLsb'_toNat, Nat.shiftRight_eq_div_pow]
    rw [Block.sumBytes, ih fun k hk => h k (hk.trans n.lt_succ_self), hbyte, Nat.mul_succ, pow_add, Nat.mod_mul,
      Nat.mul_comm (2 ^ (8 * n))]

theorem sumBytes_lt (b : Block) (off n : Nat) : b.sumBytes off n < 2 ^ (8 * n) := by
  induction n with
  | zero => simp [Block.sumBytes]
  | succ n ih =>
    have hbyte : (b.byteAt (off + n)).toNat ≤ 2 ^ 8 - 1 := Nat.le_pred_of_lt (b.byteAt (off + n)).isLt
    calc b.sumBytes off (n + 1) < 2 ^ (8 * n) + (2 ^ 8 - 1) * 2 ^ (8 * n) :=
          Nat.add_lt_add_of_lt_of_le ih (Nat.mul_le_mul_right _ hbyte)
      _ = 2 ^ (8 * (n + 1)) := by rw [Nat.mul_succ, pow_add]; omega

theorem width_bits_le (w : Width) : 8 * w.bytes ≤ 128 := by
  cases w <;> decide

/-- Every value of a load fits the 128 bits it is held in (log entry 16). -/
theorem toNat_ofNat_sumBytes (b : Block) (off : Nat) (w : Width) :
    (BitVec.ofNat 128 (b.sumBytes off w.bytes)).toNat = b.sumBytes off w.bytes := by
  rw [BitVec.toNat_ofNat]
  exact Nat.mod_eq_of_lt ((sumBytes_lt b off w.bytes).trans_le (Nat.pow_le_pow_right (by decide) (width_bits_le w)))

/-! ## A store -/

/-- The block with the bytes of a store written. -/
def Block.written (b : Block) (w : Width) (a : Nat) (v : Value) : Block :=
  { b with mem := b.mem.writeBytes (a - b.dramBase.toNat) v w.bytes }

theorem store_of_inBounds (h : b.inBounds a w = true) : b.store w a v = some (b.written w a v) := by
  rw [Block.store, if_pos h, Block.written]

theorem store_of_outOfBounds (h : b.inBounds a w = false) : b.store w a v = none := by
  simp [Block.store, h]

theorem load_of_inBounds (h : b.inBounds a w = true) :
    b.load w a = some (BitVec.ofNat 128 (b.sumBytes (a - b.dramBase.toNat) w.bytes)) := by
  rw [Block.load, if_pos h]

theorem load_of_outOfBounds (h : b.inBounds a w = false) : b.load w a = none := by
  simp [Block.load, h]

theorem byteAt_written_of_lt (h : b.inBounds a w = true) {k : Nat} (hk : k < w.bytes) :
    (b.written w a v).byteAt (a - b.dramBase.toNat + k) = v.extractLsb' (8 * k) 8 := by
  rw [byteAt_store (store_of_inBounds h), if_pos (by omega), Nat.add_sub_cancel_left]

theorem covers_eq_true_iff {a : Addr} : b.covers a w off = true ↔
    a.toNat - b.dramBase.toNat ≤ off ∧ off < a.toNat - b.dramBase.toNat + w.bytes := by
  rw [Block.covers, Bool.and_eq_true, decide_eq_true_eq, decide_eq_true_eq]

theorem byteAt_written (a : Addr) (h : b.inBounds a.toNat w = true) : (b.written w a.toNat v).byteAt off =
    if b.covers a w off = true then v.extractLsb' (8 * (off - (a.toNat - b.dramBase.toNat))) 8 else b.byteAt off := by
  rw [byteAt_store (store_of_inBounds h)]
  simp only [covers_eq_true_iff]

/-! ## The two transactions -/

section Transaction

variable {s : State} {a : Addr}

theorem dramLoad_of_outOfBounds (hlive : s.block.dramLive = true) (h : s.block.inBounds a.toNat w = false) :
    s.dramLoad w a = s.respond (.boundaryError .outOfBounds) := by
  rw [State.dramLoad, if_pos hlive, load_of_outOfBounds h, State.raise]

theorem dramLoad_of_inBounds (hlive : s.block.dramLive = true) (h : s.block.inBounds a.toNat w = true) : s.dramLoad w a =
    s.respond (.value (BitVec.ofNat 128 (s.block.sumBytes (a.toNat - s.block.dramBase.toNat) w.bytes))) := by
  rw [State.dramLoad, if_pos hlive, load_of_inBounds h]

theorem dramStore_of_outOfBounds (hlive : s.block.dramLive = true) (h : s.block.inBounds a.toNat w = false) :
    s.dramStore w a v = s.respond (.boundaryError .outOfBounds) := by
  rw [State.dramStore, if_pos hlive, store_of_outOfBounds h, State.raise]

theorem dramStore_of_inBounds (hlive : s.block.dramLive = true) (h : s.block.inBounds a.toNat w = true) :
    s.dramStore w a v = { s with block := s.block.written w a.toNat v }.respond .done := by
  rw [State.dramStore, if_pos hlive, store_of_inBounds h]

variable {rest : List Request}

theorem step_load_of_inBounds (hs : s.Asks (.dramLoad w a) rest) (hlive : s.block.dramLive = true)
    (h : s.block.inBounds a.toNat w = true) : step s = .next (s.answered s.block rest
      (.value (BitVec.ofNat 128 (s.block.sumBytes (a.toNat - s.block.dramBase.toNat) w.bytes)))) :=
  step_of_asks_of_answered hs (dramLoad_of_inBounds hlive h)

theorem step_load_of_outOfBounds (hs : s.Asks (.dramLoad w a) rest) (hlive : s.block.dramLive = true)
    (h : s.block.inBounds a.toNat w = false) :
    step s = .next (s.answered s.block rest (.boundaryError .outOfBounds)) :=
  step_of_asks_of_answered hs (dramLoad_of_outOfBounds hlive h)

theorem step_store_of_inBounds (hs : s.Asks (.dramStore w a v) rest) (hlive : s.block.dramLive = true)
    (h : s.block.inBounds a.toNat w = true) :
    step s = .next (s.answered (s.block.written w a.toNat v) rest .done) :=
  step_of_asks_of_answered hs (dramStore_of_inBounds hlive h)

end Transaction

/-! ## The statements -/

/-- Settles O15: the two forms differ by the base on both sides. -/
theorem boundsRuleInBothForms : Obligations.BoundsRuleInBothForms := by
  intro b a w
  refine ⟨inBounds_eq_true_iff b a w, ?_⟩
  rw [inBounds_eq_true_iff]
  omega

/-- Settles O16: the value is the sum of its bytes, which no width makes too large. -/
theorem loadAnswersTheLittleEndianSum : Obligations.LoadAnswersTheLittleEndianSum := by
  intro s w a rest hs
  refine ⟨fun hdead => step_of_asks_of_refused hs (dramLoad_of_dead hdead), step_load_of_outOfBounds hs, ?_⟩
  intro hlive h
  refine ⟨_, ?_, ?_, step_load_of_inBounds hs hlive h⟩
  · rw [toNat_ofNat_sumBytes, sumBytes_eq_sum]
  · rw [toNat_ofNat_sumBytes]
    exact sumBytes_lt _ _ _

/-- Settles O17: the written memory reads as the value where the access covers it, and as before elsewhere. -/
theorem storeWritesExactlyItsBytes : Obligations.StoreWritesExactlyItsBytes := by
  intro s w a v rest hs
  refine ⟨fun hdead => step_of_asks_of_refused hs (dramStore_of_dead hdead),
    fun hlive h => step_of_asks_of_answered hs (dramStore_of_outOfBounds hlive h), ?_⟩
  intro hlive h
  refine ⟨_, step_store_of_inBounds hs hlive h, fun k hk => byteAt_written_of_lt h hk, fun off hoff => ?_⟩
  exact (byteAt_written a h).trans (if_neg (by simp [hoff]))

/-- Settles O18: the cases of the two transactions do not ask for the remainder. -/
theorem accessesHaveNoAlignmentRule : Obligations.AccessesHaveNoAlignmentRule := fun _ _ _ _ _ _ _ hlive h =>
  ⟨fun hs => ⟨_, step_load_of_inBounds hs hlive h⟩, fun hs => ⟨_, step_store_of_inBounds hs hlive h⟩⟩

/-- Settles O19: the load sums the bytes that the store wrote. -/
theorem loadAfterStoreAnswersTheValue : Obligations.LoadAfterStoreAnswersTheValue := by
  intro s w a v rest hs hlive h
  have hasks : (s.answered (s.block.written w a.toNat v) (.dramLoad w a :: rest) .done).Asks (.dramLoad w a) rest :=
    ⟨hs.noFault, hs.idle, rfl⟩
  refine ⟨_, _, step_store_of_inBounds hs hlive h, step_load_of_inBounds hasks hlive h, ?_⟩
  have hsum : (s.block.written w a.toNat v).sumBytes (a.toNat - s.block.dramBase.toNat) w.bytes =
      v.toNat % 2 ^ (8 * w.bytes) :=
    sumBytes_of_bytes v fun _ hk => byteAt_written_of_lt h hk
  rw [← hsum]
  exact List.append_assoc ..

end Sys2Proof.Machine
end

section
/-! A run of stores (spec/20 R75). -/

namespace Sys2Proof.Machine

variable {b : Block}

/-- The block after the stores of a list, the first one first; one that is out of bounds changes nothing. -/
def Block.storeAll (b : Block) (stores : List (Width × Addr × Value)) : Block :=
  stores.foldl (fun c x => (c.store x.1 x.2.1.toNat x.2.2).getD c) b

theorem storeAll_concat (b : Block) (xs : List (Width × Addr × Value)) (x : Width × Addr × Value) :
    b.storeAll (xs ++ [x]) = ((b.storeAll xs).store x.1 x.2.1.toNat x.2.2).getD (b.storeAll xs) := by
  simp [Block.storeAll]

theorem store_getD_frame (b : Block) (w : Width) (a : Nat) (v : Value) :
    ∃ m, (b.store w a v).getD b = { b with mem := m } := by
  cases h : b.inBounds a w with
  | true => exact ⟨_, by rw [store_of_inBounds h]; rfl⟩
  | false => exact ⟨b.mem, by rw [store_of_outOfBounds h]; rfl⟩

/-- Stores write memory only. -/
theorem storeAll_frame (b : Block) (xs : List (Width × Addr × Value)) : ∃ m, b.storeAll xs = { b with mem := m } := by
  induction xs using List.reverseRecOn with
  | nil => exact ⟨b.mem, rfl⟩
  | append_singleton xs x ih =>
    obtain ⟨m, hm⟩ := ih
    rw [storeAll_concat, hm]
    exact store_getD_frame _ _ _ _

/-- Settles O20, by induction on the list from its last store, which decides the bytes it covers. -/
theorem latestStoreToAByteWins : Obligations.LatestStoreToAByteWins := by
  intro b stores off hmem hin
  change (b.storeAll stores).byteAt off = _
  induction stores using List.reverseRecOn with
  | nil => simp [Block.storeAll, Block.byteAt, hmem, Memory.read]
  | append_singleton xs x ih =>
    have hx : b.inBounds x.2.1.toNat x.1 = true := hin x (by simp)
    have hxs := ih fun y hy => hin y (List.mem_append_left [x] hy)
    obtain ⟨m, hm⟩ := storeAll_frame b xs
    have hstore : (b.storeAll (xs ++ [x])).byteAt off = if b.covers x.2.1 x.1 off = true then
        x.2.2.extractLsb' (8 * (off - (x.2.1.toNat - b.dramBase.toNat))) 8 else (b.storeAll xs).byteAt off := by
      have hx' : ({ b with mem := m } : Block).inBounds x.2.1.toNat x.1 = true := hx
      rw [storeAll_concat, hm, store_of_inBounds hx', Option.getD_some]
      exact byteAt_written x.2.1 hx'
    rw [hstore, List.reverse_concat', List.find?_cons]
    cases b.covers x.2.1 x.1 off with
    | true => rfl
    | false => exact hxs

end Sys2Proof.Machine
end

section
/-! The caller's fetch (spec/20 R79): each word of a batch from one load, and the batch from its words. -/

namespace Sys2Proof.Machine

variable {b : Block} {base : Pc} {i n : Nat}

/-- The bytes of a word in DRAM order. -/
theorem extractLsb'_wordOfBytes (b0 b1 b2 b3 : Byte) :
    (wordOfBytes b0 b1 b2 b3).extractLsb' 0 8 = b0 ∧ (wordOfBytes b0 b1 b2 b3).extractLsb' 8 8 = b1 ∧
    (wordOfBytes b0 b1 b2 b3).extractLsb' 16 8 = b2 ∧ (wordOfBytes b0 b1 b2 b3).extractLsb' 24 8 = b3 := by
  have hslice : ∀ start len, (wordOfBytes b0 b1 b2 b3).extractLsb' start len =
      (b3 ++ b2 ++ b1 ++ b0).extractLsb' start len := fun _ _ => rfl
  simp (disch := omega) only [hslice, BitVec.extractLsb'_append_eq_of_le, BitVec.extractLsb'_append_eq_of_add_le,
    Nat.reduceSub, BitVec.extractLsb'_eq_self, and_self]

/-- The word at an offset. -/
def Block.wordAt (b : Block) (off : Nat) : Word :=
  wordOfBytes (b.byteAt off) (b.byteAt (off + 1)) (b.byteAt (off + 2)) (b.byteAt (off + 3))

theorem sumBytes_four (b : Block) (off : Nat) : b.sumBytes off 4 = (b.wordAt off).toNat := by
  obtain ⟨h0, h1, h2, h3⟩ := extractLsb'_wordOfBytes (b.byteAt off) (b.byteAt (off + 1)) (b.byteAt (off + 2))
    (b.byteAt (off + 3))
  rw [sumBytes_of_bytes (b.wordAt off)]
  · exact Nat.mod_eq_of_lt (b.wordAt off).isLt
  · intro k hk
    interval_cases k
    exacts [h0.symm, h1.symm, h2.symm, h3.symm]

theorem ofNat_sumBytes_four (b : Block) (off : Nat) :
    BitVec.ofNat 128 (b.sumBytes off 4) = (b.wordAt off).setWidth 128 := by
  rw [sumBytes_four]
  exact BitVec.ofNat_toNat 128 _

theorem fetchWord_of_ok (hlive : b.dramLive = true) (h : b.inBounds (base.toNat + 4 * i) .w32 = true) :
    b.fetchWord base i = some (b.wordAt (base.toNat + 4 * i - b.dramBase.toNat)) := by
  have hload := dramLoad_of_ok hlive h
  rw [show Width.w32.bytes = 4 from rfl, ofNat_sumBytes_four] at hload
  rw [Block.fetchWord, hload]
  simp

theorem ok_of_fetchWord_eq_some {w : Word} (h : b.fetchWord base i = some w) :
    b.dramLive = true ∧ b.inBounds (base.toNat + 4 * i) .w32 = true := by
  have hne : ¬(b.dramLive = false ∨ b.inBounds (base.toNat + 4 * i) .w32 = false) := by
    rw [← fetchWord_eq_none_iff, h]
    exact Option.some_ne_none w
  simpa using hne

/-! ## The batch -/

theorem fetchWords_eq_some {ws : List Word} (h : b.fetchWords base n = some ws) :
    ws.length = n ∧ ∀ i < n, ws[i]? = b.fetchWord base i := by
  induction n generalizing ws with
  | zero =>
    cases h
    exact ⟨rfl, fun _ hi => absurd hi (Nat.not_lt_zero _)⟩
  | succ n ih =>
    unfold Block.fetchWords at h
    split at h
    · next xs w hxs hw =>
      cases h
      obtain ⟨hlen, hget⟩ := ih hxs
      refine ⟨by simp [hlen], fun i hi => ?_⟩
      obtain hi | rfl := Nat.lt_succ_iff_lt_or_eq.mp hi
      · rw [List.getElem?_append_left (by omega), hget i hi]
      · rw [List.getElem?_append_right hlen.le, hlen, Nat.sub_self, hw]
        rfl
    · cases h

theorem fetchWords_eq_none_iff : b.fetchWords base n = none ↔ ∃ i < n, b.fetchWord base i = none := by
  induction n with
  | zero => simp [Block.fetchWords]
  | succ n ih =>
    have hsplit : (∃ i < n + 1, b.fetchWord base i = none) ↔
        (∃ i < n, b.fetchWord base i = none) ∨ b.fetchWord base n = none := by
      constructor
      · rintro ⟨i, hi, hnone⟩
        obtain hi | rfl := Nat.lt_succ_iff_lt_or_eq.mp hi
        · exact .inl ⟨i, hi, hnone⟩
        · exact .inr hnone
      · rintro (⟨i, hi, hnone⟩ | hnone)
        · exact ⟨i, hi.trans n.lt_succ_self, hnone⟩
        · exact ⟨n, n.lt_succ_self, hnone⟩
    rw [hsplit, ← ih, Block.fetchWords]
    cases b.fetchWords base n <;> cases b.fetchWord base n <;> simp

/-- Settles O21: a word of the batch is the value of its own load, and the transaction answers the same value or why there is
none. -/
theorem fetchFollowsTheConvention : Obligations.FetchFollowsTheConvention := by
  intro b base
  refine ⟨fun ws hws => ?batch, ?none, ?answer⟩
  case batch =>
    obtain ⟨hlen, hget⟩ := fetchWords_eq_some hws
    refine ⟨hlen, fun i hi => ?_⟩
    have hsome : b.fetchWord base i ≠ none := by
      intro hnone
      rw [Block.fetchBatch, fetchWords_eq_none_iff.mpr ⟨i, hi, hnone⟩] at hws
      cases hws
    obtain ⟨w, hw⟩ := Option.ne_none_iff_exists'.mp hsome
    obtain ⟨hlive, hin⟩ := ok_of_fetchWord_eq_some hw
    exact ⟨hlive, hget i hi, (hget i hi).trans (fetchWord_of_ok hlive hin)⟩
  case none =>
    simp only [Block.fetchBatch, fetchWords_eq_none_iff, fetchWord_eq_none_iff]
  case answer =>
    rintro s rest i rfl haddr hs
    have ha : (BitVec.ofNat 64 (base.toNat + 4 * i)).toNat = base.toNat + 4 * i :=
      (BitVec.toNat_ofNat _ _).trans (Nat.mod_eq_of_lt haddr)
    refine ⟨fun w hw => ?_, fun hnone hlive => ?_, fun _ hdead => step_of_asks_of_refused hs (dramLoad_of_dead hdead)⟩
    · obtain ⟨hlive, hin⟩ := ok_of_fetchWord_eq_some hw
      have hstep := step_load_of_inBounds hs hlive (by rw [ha]; exact hin)
      rw [ha, show Width.w32.bytes = 4 from rfl, ofNat_sumBytes_four] at hstep
      rw [fetchWord_of_ok hlive hin] at hw
      rwa [← Option.some.inj hw]
    · have hout := (fetchWord_eq_none_iff _ _ _).mp hnone
      rw [hlive] at hout
      exact step_load_of_outOfBounds hs hlive (by rw [ha]; simpa using hout)

end Sys2Proof.Machine
end

section
/-! The transactions of Stage-1, Stage-2 and the scalar decode (spec/41, spec/42): each case by its own equation. -/

namespace Sys2Proof.Machine

variable {s : State}

theorem s1Decode_of_length_ne {base : Pc} {words : List Word} (h : words.length ≠ s.block.params.batchN) :
    s.s1Decode base words = s.refuse .unsupported := by
  rw [State.s1Decode, if_pos h]

theorem s1Decode_of_misaligned {base : Pc} {words : List Word} (hlen : words.length = s.block.params.batchN)
    (h : base.toNat % 4 ≠ 0) : s.s1Decode base words =
      { s with block := { s.block with s1 := { s.block.s1 with valid := false } } }.respond
        (.boundaryError .misalignedBase) := by
  rw [State.s1Decode, if_neg (not_not.mpr hlen), if_pos h, State.raise]

theorem s1Decode_of_aligned {base : Pc} {words : List Word} (hlen : words.length = s.block.params.batchN)
    (h : base.toNat % 4 = 0) : s.s1Decode base words =
      { s with block := { s.block with s1 := ⟨true, base, words.map extract⟩ } }.respond .done := by
  rw [State.s1Decode, if_neg (not_not.mpr hlen), if_neg (not_not.mpr h)]

/-- Settles O14: the two cases of a batch of `N` words. -/
theorem stage1DecodeFillsTheBankOrNone : Obligations.Stage1DecodeFillsTheBankOrNone := fun _ _ _ _ hs hlen =>
  ⟨fun h => step_of_asks_of_answered hs (s1Decode_of_aligned hlen h),
    fun h => step_of_asks_of_answered hs (s1Decode_of_misaligned hlen h)⟩

/-! ## A dead Stage-2 object refuses everything but its construction -/

theorem validateAndPack_of_dead (h : s.block.s2Live = false) : s.validateAndPack = s.refuse .useAfterDestroy := by
  simp [State.validateAndPack, h]

theorem s2Len_of_dead (h : s.block.s2Live = false) : s.s2Len = s.refuse .useAfterDestroy := by
  simp [State.s2Len, h]

theorem s2Read_of_dead {k : Nat} (h : s.block.s2Live = false) : s.s2Read k = s.refuse .useAfterDestroy := by
  simp [State.s2Read, h]

theorem s2ReadColumn_of_dead {c : Column} {k : Nat} (h : s.block.s2Live = false) :
    s.s2ReadColumn c k = s.refuse .useAfterDestroy := by
  simp [State.s2ReadColumn, h]

theorem s2Clear_of_dead (h : s.block.s2Live = false) : s.s2Clear = s.refuse .useAfterDestroy := by
  simp [State.s2Clear, h]

theorem s2Destroy_of_dead (h : s.block.s2Live = false) : s.s2Destroy = s.refuse .useAfterDestroy := by
  simp [State.s2Destroy, h]

theorem s2New_of_dead (h : s.block.s2Live = false) :
    s.s2New = { s with block := { s.block with cols := Columns.empty, s2Live := true } }.respond .done := by
  simp [State.s2New, h]

/-! ## A live one -/

theorem s2New_of_live (h : s.block.s2Live = true) : s.s2New = s.refuse .alreadyLive :=
  if_pos h

theorem s2Clear_of_live (h : s.block.s2Live = true) :
    s.s2Clear = { s with block := { s.block with cols := Columns.empty } }.respond .done :=
  if_pos h

theorem s2Destroy_of_live (h : s.block.s2Live = true) :
    s.s2Destroy = { s with block := { s.block with s2Live := false } }.respond .done :=
  if_pos h

theorem s2Len_of_live (h : s.block.s2Live = true) : s.s2Len = s.respond (.length s.block.cols.len) :=
  if_pos h

theorem validateAndPack_of_no_batch (h : s.block.s2Live = true) (hv : s.block.s1.valid = false) :
    s.validateAndPack = s.refuse .noStage1Batch := by
  simp [State.validateAndPack, h, hv]

theorem validateAndPack_of_valid (h : s.block.s2Live = true) (hv : s.block.s1.valid = true) :
    s.validateAndPack = { s with busy := true, lane := 0 }.afterLane := by
  rw [State.validateAndPack, if_pos h, if_pos hv]

theorem s2Read_of_entry (h : s.block.s2Live = true) {k : Nat} {r : Response} (hr : s.block.cols.entryAt k = some r) :
    s.s2Read k = s.respond r := by
  rw [State.s2Read, if_pos h, hr]

theorem s2Read_of_past (h : s.block.s2Live = true) {k : Nat} (hr : s.block.cols.entryAt k = none) :
    s.s2Read k = s.refuse .indexOutOfRange := by
  rw [State.s2Read, if_pos h, hr]

theorem s2ReadColumn_of_element (h : s.block.s2Live = true) {c : Column} {k : Nat} {e : Element}
    (he : s.block.cols.elementAt c k = some e) : s.s2ReadColumn c k = s.respond (.element e) := by
  rw [State.s2ReadColumn, if_pos h, he]

theorem s2ReadColumn_of_past (h : s.block.s2Live = true) {c : Column} {k : Nat}
    (he : s.block.cols.elementAt c k = none) : s.s2ReadColumn c k = s.refuse .indexOutOfRange := by
  rw [State.s2ReadColumn, if_pos h, he]

theorem decodeOne_of_scalar {w : Word} (h : s.block.params.hasScalar = true) : s.decodeOne w = s.respond (decodeOneResult w) :=
  if_pos h

theorem decodeOne_of_no_scalar {w : Word} (h : s.block.params.hasScalar = false) :
    s.decodeOne w = s.refuse .unsupported := by
  simp [State.decodeOne, h]

/-! ## The statements -/

/-- Settles O49: the three cases of the checks, in their order. -/
theorem validateAndPackBegins : Obligations.ValidateAndPackBegins := by
  intro s rest hs
  refine ⟨fun h => step_of_asks_of_refused hs (validateAndPack_of_dead h),
    fun h hv => step_of_asks_of_refused hs (validateAndPack_of_no_batch h hv), fun h hv hn => ?_⟩
  rw [step_of_asks hs]
  exact congrArg Host.Outcome.next 
    ((validateAndPack_of_valid (s := { s with requests := rest }) h hv).trans (afterLane_of_lt hs.noFault hn))

/-- Settles O50: each transaction on a live and on a dead object. -/
theorem stage2Lifecycle : Obligations.Stage2Lifecycle := by
  intro s rest
  refine ⟨fun hs h => step_of_asks_of_answered hs (s2New_of_dead h),
    fun hs h => step_of_asks_of_refused hs (s2New_of_live h),
    fun hs h => step_of_asks_of_answered hs (s2Clear_of_live h),
    fun hs h => step_of_asks_of_answered hs (s2Destroy_of_live h), ?_⟩
  rintro q hs h (rfl | rfl | ⟨k, rfl⟩ | ⟨c, k, rfl⟩ | rfl | rfl)
  · exact step_of_asks_of_refused hs (validateAndPack_of_dead h)
  · exact step_of_asks_of_refused hs (s2Len_of_dead h)
  · exact step_of_asks_of_refused hs (s2Read_of_dead h)
  · exact step_of_asks_of_refused hs (s2ReadColumn_of_dead h)
  · exact step_of_asks_of_refused hs (s2Clear_of_dead h)
  · exact step_of_asks_of_refused hs (s2Destroy_of_dead h)

theorem elementAt_eq_none_of_le {c : Columns} (hc : c.Lockstep) {k : Nat} (h : c.loc.length ≤ k) (which : Column) :
    c.elementAt which k = none := by
  cases which <;> simp [hc.op, hc.regs, hc.imm, h]

/-- Settles O51: in lockstep an index is inside every column or past the end of each. -/
theorem columnReadsAnswerTheElement : Obligations.ColumnReadsAnswerTheElement := by
  intro s rest hlive hcols
  have inside : ∀ {k}, k < s.block.cols.loc.length →
      k < s.block.cols.op.length ∧ k < s.block.cols.regs.length ∧ k < s.block.cols.imm.length := fun h =>
    ⟨hcols.op ▸ h, hcols.regs ▸ h, hcols.imm ▸ h⟩
  refine ⟨fun hs => step_of_asks_of_answered hs (s2Len_of_live hlive), ?entry, ?entryPast, ?element, ?elementPast⟩
  case entry =>
    intro k h hs
    obtain ⟨ho, hr, hm⟩ := inside h
    refine ⟨ho, hr, hm, step_of_asks_of_answered hs (s2Read_of_entry (s := { s with requests := rest }) hlive ?_)⟩
    simp [Columns.entryAt, h, ho, hr, hm]
  case entryPast =>
    intro k h hs
    refine step_of_asks_of_refused hs (s2Read_of_past (s := { s with requests := rest }) hlive ?_)
    simp [Columns.entryAt, h]
  case element =>
    intro k h
    obtain ⟨ho, hr, hm⟩ := inside h
    refine ⟨ho, hr, hm, ?_, ?_, ?_, ?_⟩
    all_goals
      intro hs
      refine step_of_asks_of_answered hs (s2ReadColumn_of_element (s := { s with requests := rest }) hlive ?_)
      simp [h, ho, hr, hm]
  case elementPast =>
    intro c k h hs
    exact step_of_asks_of_refused hs (s2ReadColumn_of_past (s := { s with requests := rest }) hlive (elementAt_eq_none_of_le hcols h c))

/-- Settles O52. -/
theorem unknownRequestsAreRefused : Obligations.UnknownRequestsAreRefused := fun _ _ =>
  ⟨fun hs => step_of_asks_of_refused hs rfl,
    fun _ hs h => step_of_asks_of_refused hs (decodeOne_of_no_scalar h),
    fun _ _ hs h => step_of_asks_of_refused hs (s1Decode_of_length_ne h)⟩

theorem decodeOneResult_of_accept {w : Word} {op : OpTag} {cls : OpClass} (h : classify (extract w) = .accept op cls) :
    decodeOneResult w = .decoded op (packOf cls (extract w)) (immOf cls (extract w)) := by
  rw [decodeOneResult, h]

theorem decodeOneResult_of_reject {w : Word} {r : Reason} (h : classify (extract w) = .reject r) :
    decodeOneResult w = .rejected (kindOf r) := by
  rw [decodeOneResult, h]

/-- Settles O53: the table of the statement is `kindOf`. -/
theorem scalarDecodeAnswersTheClassification : Obligations.ScalarDecodeAnswersTheClassification := by
  intro s w rest hs hscalar
  have hstep := step_of_asks_of_answered hs (decodeOne_of_scalar (s := { s with requests := rest }) (w := w) hscalar)
  refine ⟨fun op cls h => ?_, fun r k h hk => ?_⟩
  · rwa [decodeOneResult_of_accept h] at hstep
  · have hkind : kindOf r = k := (by decide : ∀ p ∈ [(Reason.opcode, ErrorKind.unknownOpcode), (.funct3, .unknownFunct3),
      (.funct7, .unknownFunct7), (.shamtHigh, .unknownShamtHigh), (.imm, .unknownImmediate), (.x0Write, .writesToX0)],
      kindOf p.1 = p.2) _ hk
    rwa [decodeOneResult_of_reject h, hkind] at hstep

end Sys2Proof.Machine
end

section
/-! The whole call of R181 in one piece: what it appends, with columns unbounded (R192, R202), bounded (R203) and either (R189,
R193). -/

namespace Sys2Proof.Machine

variable {l : Lane} {op : OpTag} {cls : OpClass} {r : Reason} {b : Block}

theorem packLanes_cons_of_full (h : classify l = .accept op cls) (hfull : b.full = true) (lanes : List Lane) (i : Nat) :
    b.packLanes (l :: lanes) i = b.markFault .capacityExceeded := by
  simp [Block.packLanes, h, hfull]

theorem full_eq_true_iff_of_cap {cap : Nat} (hcap : b.params.outCap = some cap) :
    b.full = true ↔ cap ≤ b.cols.loc.length := by
  rw [Block.full, hcap]
  exact decide_eq_true_iff

/-- With a capacity the accepted lanes are appended until the columns are full, and the next one sets the fault. -/
theorem packLanes_of_cap {cap : Nat} (lanes : List Lane) (b : Block) (i : Nat) (hcap : b.params.outCap = some cap)
    (hle : b.cols.loc.length ≤ cap) (hfault : b.fault = none) :
    (b.packLanes lanes i).cols.loc.length = min cap (b.cols.loc.length + acceptedCount lanes) ∧
    ((b.packLanes lanes i).fault = some .capacityExceeded ↔ cap < b.cols.loc.length + acceptedCount lanes) := by
  induction lanes generalizing b i with
  | nil =>
    rw [packLanes_nil, acceptedCount_nil, hfault]
    exact ⟨by omega, by simp [hle]⟩
  | cons l lanes ih =>
    cases hl : classify l with
    | reject r =>
      rw [packLanes_cons_of_reject hl, acceptedCount_cons_of_reject hl]
      exact ih (b.emit (diagOf l i r)) (i + 1) hcap hle hfault
    | accept op cls =>
      rw [acceptedCount_cons_of_accept hl]
      cases hfull : b.full with
      | true =>
        rw [packLanes_cons_of_full hl hfull, Block_markFault_cols, Block_markFault_fault]
        rw [full_eq_true_iff_of_cap hcap] at hfull
        exact ⟨by omega, by simp; omega⟩
      | false =>
        have hroom : b.cols.loc.length < cap := (full_eq_false_iff b).mp hfull cap hcap
        rw [packLanes_cons_of_accept hl hfull]
        have hnext := ih (b.appendEntry (locOf b.s1.base i) op (packOf cls l) (immOf cls l)) (i + 1) hcap
          (by simpa using hroom) hfault
        simpa [Nat.add_assoc, Nat.add_comm 1] using hnext

/-- Settles O45: the call packs the whole bank. -/
theorem capacityStopsTheCall : Obligations.CapacityStopsTheCall := fun b _ hcap hle hfault =>
  packLanes_of_cap b.s1.lanes b 0 hcap hle hfault

/-- Each lane appends one element to every column, or one record, or sets the fault. -/
theorem packLanes_appends (lanes : List Lane) (b : Block) (i : Nat) : ∃ p o r m d f,
    b.packLanes lanes i = { b with
      cols := ⟨b.cols.loc ++ p, b.cols.op ++ o, b.cols.regs ++ r, b.cols.imm ++ m⟩, diag := b.diag ++ d, fault := f } ∧
    o.length = p.length ∧ r.length = p.length ∧ m.length = p.length := by
  induction lanes generalizing b i with
  | nil => exact ⟨[], [], [], [], [], b.fault, by simp, rfl, rfl, rfl⟩
  | cons l lanes ih =>
    cases hl : classify l with
    | reject r =>
      obtain ⟨p, o, rs, m, d, f, heq, hlen⟩ := ih (b.emit (diagOf l i r)) (i + 1)
      refine ⟨p, o, rs, m, diagOf l i r :: d, f, ?_, hlen⟩
      rw [packLanes_cons_of_reject hl, heq]
      simp [Block.emit]
    | accept op cls =>
      cases hfull : b.full with
      | true =>
        refine ⟨[], [], [], [], [], some .capacityExceeded, ?_, rfl, rfl, rfl⟩
        rw [packLanes_cons_of_full hl hfull]
        simp [Block.markFault]
      | false =>
        obtain ⟨p, o, rs, m, d, f, heq, ho, hr, hm⟩ :=
          ih (b.appendEntry (locOf b.s1.base i) op (packOf cls l) (immOf cls l)) (i + 1)
        refine ⟨locOf b.s1.base i :: p, op :: o, packOf cls l :: rs, immOf cls l :: m, d, f, ?_, by simp [ho], by simp [hr],
          by simp [hm]⟩
        rw [packLanes_cons_of_accept hl hfull, heq]
        simp [Block.appendEntry, Columns.append]

/-- Settles O46: the call is its lanes from index 0 on. -/
theorem callOnlyAppends : Obligations.CallOnlyAppends := fun b => packLanes_appends b.s1.lanes b 0

/-- With unbounded columns what the lanes append depends on them and on the base alone. -/
theorem packLanes_of_unbounded (base : Pc) (lanes : List Lane) (i : Nat) : ∃ p o r m d, ∀ b : Block,
    b.params.outCap = none → b.s1.base = base → b.packLanes lanes i = { b with
      cols := ⟨b.cols.loc ++ p, b.cols.op ++ o, b.cols.regs ++ r, b.cols.imm ++ m⟩, diag := b.diag ++ d } := by
  induction lanes generalizing i with
  | nil => exact ⟨[], [], [], [], [], fun b _ _ => by simp⟩
  | cons l lanes ih =>
    obtain ⟨p, o, rs, m, d, heq⟩ := ih (i + 1)
    cases hl : classify l with
    | reject r =>
      refine ⟨p, o, rs, m, diagOf l i r :: d, fun b hcap hbase => ?_⟩
      rw [packLanes_cons_of_reject hl, heq (b.emit _) hcap hbase]
      simp [Block.emit]
    | accept op cls =>
      refine ⟨locOf base i :: p, op :: o, packOf cls l :: rs, immOf cls l :: m, d, fun b hcap hbase => ?_⟩
      rw [packLanes_cons_of_accept hl (full_of_unbounded hcap), heq (b.appendEntry ..) hcap hbase]
      simp [Block.appendEntry, Columns.append, hbase]

/-- Settles O47: the first call leaves the bank and the parameters, so the second appends the same lists. -/
theorem secondCallAppendsTheSameAgain : Obligations.SecondCallAppendsTheSameAgain := by
  intro b hcap
  obtain ⟨p, o, r, m, d, heq⟩ := packLanes_of_unbounded b.s1.base b.s1.lanes 0
  have hfirst : b.packAll = _ := heq b hcap rfl
  refine ⟨p, o, r, m, d, hfirst, ?_⟩
  rw [hfirst]
  exact heq _ hcap rfl

/-! ## The locations of a call -/

/-- The accepted lanes, in order, are where the appended locations come from. -/
theorem packLanes_loc (lanes : List Lane) (b : Block) (i : Nat) : ∃ js : List Nat,
    js.Sublist (List.range' i lanes.length) ∧
    (b.packLanes lanes i).cols.loc = b.cols.loc ++ js.map (locOf b.s1.base) := by
  induction lanes generalizing b i with
  | nil => exact ⟨[], List.Sublist.slnil, by simp⟩
  | cons l lanes ih =>
    rw [List.length_cons, List.range'_succ]
    cases hl : classify l with
    | reject r =>
      obtain ⟨js, hsub, hloc⟩ := ih (b.emit (diagOf l i r)) (i + 1)
      rw [packLanes_cons_of_reject hl]
      exact ⟨js, hsub.cons i, hloc⟩
    | accept op cls =>
      cases hfull : b.full with
      | true =>
        rw [packLanes_cons_of_full hl hfull]
        exact ⟨[], List.nil_sublist _, by simp⟩
      | false =>
        obtain ⟨js, hsub, hloc⟩ := ih (b.appendEntry (locOf b.s1.base i) op (packOf cls l) (immOf cls l)) (i + 1)
        rw [packLanes_cons_of_accept hl hfull]
        exact ⟨i :: js, hsub.cons_cons i, by simpa using hloc⟩

theorem toNat_locOf {base : Pc} {i : Nat} (h : base.toNat + 4 * i < 2 ^ 32) : (locOf base i).toNat = base.toNat + 4 * i := by
  rw [locOf, BitVec.toNat_add, BitVec.toNat_ofNat, Nat.add_mod_mod, Nat.mod_eq_of_lt h]

/-- Settles O48: the lane indices rise, and without a wrap so do their locations. -/
theorem locationsRiseWithinACall : Obligations.LocationsRiseWithinACall := by
  intro b
  obtain ⟨js, hsub, hloc⟩ := packLanes_loc b.s1.lanes b 0
  have hlt : ∀ j ∈ js, j < b.s1.lanes.length := fun j hj => by simpa using hsub.subset hj
  refine ⟨js.map (locOf b.s1.base), hloc, ?_, fun hwrap => ?_⟩
  · intro p hp
    obtain ⟨j, hj, rfl⟩ := List.mem_map.mp hp
    exact ⟨j, hlt j hj, rfl⟩
  · rw [List.pairwise_map]
    have hrise : js.Pairwise (· < ·) := (List.pairwise_lt_range' ..).sublist hsub
    refine hrise.imp_of_mem fun {i j} hi hj hij => ?_
    have hi' := hlt i hi
    have hj' := hlt j hj
    rw [toNat_locOf (by omega), toNat_locOf (by omega)]
    omega

end Sys2Proof.Machine
end

section
/-! The steps of a call (log entry 1) against the call in one piece: one lane a step, each doing what `classify` says of it. -/

namespace Sys2Proof.Machine

variable {s : State} {l : Lane}

/-- What R181 does with a lane on its verdict. -/
def State.meetLane (s : State) (l : Lane) : Verdict → State
  | .accept op cls => s.acceptLane op (packOf cls l) (immOf cls l)
  | .reject r => s.dropLane r

/-- The meaning of the instruction an extracted lane decodes to does what its verdict says (log entry 5). -/
theorem exec_of_rowOf {w : Word} {op : OpTag} (h : rowOf (extract w) = .ok op) (s : State) :
    exec (laneInstr (extract w) op) s = .next (s.meetLane (extract w) (classify (extract w))) := by
  rw [exec_laneInstr, operandImm_extract (matchesRow_of_rowOf h), classify_of_rowOf_ok h, acceptUnlessX0]
  cases hw : op.cls.writesRd with
  | false => simp [State.meetLane]
  | true =>
    by_cases hrd : (extract w).rd = 0#5
    · simp only [if_true, hrd, acceptWriting_of_x0, and_self, State.meetLane]
    · simp only [if_true, acceptWriting_of_ne hrd, hrd, and_false, if_false, State.meetLane]

theorem laneStep_of_lane (hl : s.block.s1.lanes[s.lane]? = some l) (hx : laneExtracted l) :
    s.laneStep = .next (s.meetLane l (classify l)).afterLane := by
  rw [State.laneStep, hl]
  rw [laneExtracted] at hx
  rw [hx]
  cases hrow : rowOf (extract l.word) with
  | error r =>
    have hdec := decodeLane_eq_reject_iff.mpr hrow
    simp only [hdec, classify_of_rowOf_error hrow, State.meetLane]
  | ok op =>
    have hdec := decodeLane_eq_instr_iff.mpr ⟨op, hrow, rfl⟩
    simp only [hdec, exec_of_rowOf hrow, continueCall]

theorem step_of_lane (hf : s.block.fault = none) (hb : s.busy = true) (hl : s.block.s1.lanes[s.lane]? = some l)
    (hx : laneExtracted l) : step s = .next (s.meetLane l (classify l)).afterLane := by
  rw [← laneStep_of_lane hl hx, step, hf]
  simp [hb]

theorem run_succ_of_core_step {M : Host.Core} {s t : M.State} (h : M.step s = .next t) (k : Nat) :
    M.run (k + 1) s = M.run k t := by
  rw [Host.Core.run, h]

theorem run_succ_of_step {t : State} (h : step s = .next t) (k : Nat) :
    Host.Core.run Sys2Proof.core (k + 1) s = Host.Core.run Sys2Proof.core k t :=
  run_succ_of_core_step (M := Sys2Proof.core) h k

/-! ## One lane -/

/-- After the lane `l` the call in `u` has only `rest` to process, and packs it into what `s` packs both into. -/
structure GoesOn (s u : State) (l : Lane) (rest : List Lane) : Prop where
  fault : u.block.fault = s.block.fault
  busy : u.busy = s.busy
  bank : u.block.s1 = s.block.s1
  params : u.block.params = s.block.params
  lane : u.lane = s.lane + 1
  requests : u.requests = s.requests
  responses : u.responses = s.responses
  pack : u.block.packLanes rest u.lane = s.block.packLanes (l :: rest) s.lane

/-- A lane goes on to the next, or stops the call with the fault, in a step as in the pseudocode of R181. -/
theorem meetLane_cases (hl : s.block.s1.laneAt s.lane = l) (rest : List Lane) :
    GoesOn s (s.meetLane l (classify l)) l rest ∨
    (s.meetLane l (classify l) = { s with block := s.block.markFault .capacityExceeded } ∧
      s.block.packLanes (l :: rest) s.lane = s.block.markFault .capacityExceeded) := by
  cases hc : classify l with
  | reject r =>
    refine .inl ⟨rfl, rfl, rfl, rfl, rfl, rfl, rfl, ?_⟩
    rw [packLanes_cons_of_reject hc, ← hl]
    rfl
  | accept op cls =>
    rw [State.meetLane]
    cases hfull : s.block.full with
    | false =>
      rw [acceptLane_of_room hfull]
      refine .inl ⟨rfl, rfl, rfl, rfl, rfl, rfl, rfl, ?_⟩
      rw [packLanes_cons_of_accept hc hfull]
    | true => exact .inr ⟨acceptLane_of_full hfull op _ _, packLanes_cons_of_full hc hfull rest s.lane⟩

/-! ## All lanes -/

/-- The call that stands at the lane of `s`, with `lanes` still to process, has ended in `t` after `k` lanes. -/
structure CallEnds (s : State) (lanes : List Lane) (k : Nat) (t : State) : Prop where
  steps : k ≤ lanes.length
  block : t.block = s.block.packLanes lanes s.lane
  idle : t.busy = false
  lane : t.lane = 0
  requests : t.requests = s.requests
  done : t.block.fault = none → k = lanes.length ∧ t.responses = s.responses ++ [.done]
  faulted : ∀ f, t.block.fault = some f → t.responses = s.responses ++ [.faulted f]

theorem CallEnds.of_goesOn {u t : State} {rest : List Lane} {k : Nat} (hu : GoesOn s u l rest) (h : CallEnds u rest k t) :
    CallEnds s (l :: rest) (k + 1) t where
  steps := Nat.succ_le_succ h.steps
  block := h.block.trans hu.pack
  idle := h.idle
  lane := h.lane
  requests := h.requests.trans hu.requests
  done hnone := ⟨congrArg Nat.succ (h.done hnone).1, hu.responses ▸ (h.done hnone).2⟩
  faulted f hsome := hu.responses ▸ h.faulted f hsome

/-- The lane a call stands at is the first of those still to process. -/
theorem getElem?_of_drop_eq_cons {lanes rest : List Lane} {n : Nat} (h : lanes.drop n = l :: rest) :
    lanes[n]? = some l ∧ lanes.drop (n + 1) = rest := by
  constructor
  · rw [← List.head?_drop, h]; rfl
  · rw [← List.tail_drop, h]; rfl

/-- The steps of a call, by induction on the lanes still to process. -/
theorem exists_run_callEnds (lanes : List Lane) (s : State) (hf : s.block.fault = none) (hb : s.busy = true)
    (hx : ∀ l ∈ s.block.s1.lanes, laneExtracted l) (hdrop : s.block.s1.lanes.drop s.lane = lanes)
    (hlen : s.lane + lanes.length = s.block.params.batchN) :
    ∃ k t, Host.Core.run Sys2Proof.core k s.afterLane = .next t ∧ CallEnds s lanes k t := by
  induction lanes generalizing s with
  | nil =>
    refine ⟨0, _, rfl, ?_⟩
    rw [afterLane_of_le hf hlen.ge]
    exact ⟨le_rfl, rfl, rfl, rfl, rfl, fun _ => ⟨rfl, rfl⟩, fun f hsome => by simp [hf] at hsome⟩
  | cons l rest ih =>
    obtain ⟨hl, hrest⟩ := getElem?_of_drop_eq_cons hdrop
    rw [List.length_cons] at hlen
    rw [afterLane_of_lt hf (by omega)]
    have hstep := step_of_lane hf hb hl (hx l (List.mem_of_getElem? hl))
    obtain hu | ⟨hu, hpack⟩ := meetLane_cases (s := s) (by rw [Stage1.laneAt, hl]) rest
    · obtain ⟨k, t, hrun, hends⟩ := ih _ (hu.fault.trans hf) (hu.busy.trans hb) (hu.bank ▸ hx)
        (by rw [hu.bank, hu.lane, hrest]) (by rw [hu.lane, hu.params]; omega)
      exact ⟨k + 1, t, (run_succ_of_step hstep k).trans hrun, hends.of_goesOn hu⟩
    · rw [hu, afterLane_of_fault rfl] at hstep
      refine ⟨1, _, run_succ_of_step hstep 0, Nat.succ_le_succ (Nat.zero_le _), hpack.symm, rfl, rfl, rfl, nofun, ?_⟩
      intro f hsome
      rw [← Option.some.inj hsome]

/-- Settles O43: the first step begins the call, and its lanes are the whole bank. -/
theorem laneStepsRealiseValidateAndPack : Obligations.LaneStepsRealiseValidateAndPack := by
  intro s rest hs hlive hvalid hbank
  have hbegin : step s = .next { s with requests := rest, busy := true, lane := 0 : State }.afterLane :=
    (step_of_asks hs).trans
      (congrArg Host.Outcome.next (validateAndPack_of_valid (s := { s with requests := rest }) hlive hvalid))
  obtain ⟨k, t, hrun, hends⟩ := exists_run_callEnds s.block.s1.lanes
    { s with requests := rest, busy := true, lane := 0 } hs.noFault rfl hbank.extracted rfl
    ((Nat.zero_add _).trans hbank.full)
  refine ⟨k, t, hbank.full ▸ hends.steps, (run_succ_of_step hbegin k).trans hrun, hends.block, hends.idle, hends.lane,
    hends.requests, fun hnone => ?_, hends.faulted⟩
  rw [← hbank.full]
  exact hends.done hnone

end Sys2Proof.Machine
end

section
/-! What a step can do to the block, said once: a lane (R190, R203), and each transaction (R40). -/

namespace Sys2Proof.Machine

variable {s t : State} {b c : Block} {q : Request}

/-! ## A step of a call -/

/-- The block before and after one lane of a call. -/
inductive LaneChange (b : Block) : Block → Prop
  | nothing : LaneChange b b
  | record (d : DiagRecord) : LaneChange b (b.emit d)
  | entry (p : Pc) (o : OpTag) (r : Packed) (m : Imm) (room : b.full = false) : LaneChange b (b.appendEntry p o r m)
  | fault (full : b.full = true) : LaneChange b (b.markFault .capacityExceeded)

theorem laneChange_of_exec {i : Instr} (h : exec i s = .next t) : LaneChange s.block t.block := by
  obtain ⟨u, hu, hcases⟩ := exec_cases i s
  cases hu.symm.trans h
  obtain rfl | ⟨op, regs, imm, rfl⟩ := hcases
  · exact .record _
  · obtain ⟨hroom, h⟩ | ⟨hfull, h⟩ := acceptLane_cases s op regs imm
    · rw [h]; exact .entry _ _ _ _ hroom
    · rw [h]; exact .fault hfull

theorem laneStep_change (h : s.laneStep = .next t) : LaneChange s.block t.block := by
  obtain ⟨l, i, u, -, -, hexec, rfl⟩ | ⟨l, r, -, -, rfl⟩ | ⟨-, rfl⟩ := laneStep_cases h
  · rw [State_afterLane_block]; exact laneChange_of_exec hexec
  · rw [State_afterLane_block]; exact .record _
  · exact .nothing

/-- A step of a call always answers a next state. -/
theorem exists_laneStep_eq_next (s : State) : ∃ t, s.laneStep = .next t := by
  unfold State.laneStep
  split
  · exact ⟨_, rfl⟩
  · split
    · next i _ =>
      obtain ⟨u, hu, -⟩ := exec_cases i s
      exact ⟨_, by rw [hu]; rfl⟩
    · exact ⟨_, rfl⟩
    · exact ⟨_, rfl⟩

/-! ## A transaction -/

/-- The block before and after a transaction, which completes at once. -/
inductive BlockChange (b : Block) : Request → Block → Prop
  | nothing (q : Request) : BlockChange b q b
  | refused (q : Request) (r : RefusalReason) : BlockChange b q (b.markRefused r)
  | dramInit (size : Nat) (base : Option Addr) (fits : (base.getD Config.defaultBase).toNat + size ≤ Config.addrSpace) :
    BlockChange b (.dramInit size base) (b.withFreshDram size (base.getD Config.defaultBase))
  | dramStore (w : Width) (a : Addr) (v : Value) (inBounds : b.inBounds a.toNat w = true) :
    BlockChange b (.dramStore w a v) (b.written w a.toNat v)
  | dramDestroy : BlockChange b .dramDestroy { b with dramLive := false }
  | noBatch (base : Pc) (words : List Word) : BlockChange b (.s1Decode base words) { b with s1 := { b.s1 with valid := false } }
  | batch (base : Pc) (words : List Word) (length : words.length = b.params.batchN) (aligned : base.toNat % 4 = 0) :
    BlockChange b (.s1Decode base words) { b with s1 := ⟨true, base, words.map extract⟩ }
  | s2New : BlockChange b .s2New { b with cols := Columns.empty, s2Live := true }
  | s2Clear : BlockChange b .s2Clear { b with cols := Columns.empty }
  | s2Destroy : BlockChange b .s2Destroy { b with s2Live := false }

/-- The transaction was answered at once, its block changed as `BlockChange` says. -/
def Completes (s : State) (q : Request) (t : State) : Prop :=
  ∃ b r, t = { s with block := b }.respond r ∧ BlockChange s.block q b

theorem completes_respond (s : State) (q : Request) (r : Response) : Completes s q (s.respond r) :=
  ⟨s.block, r, rfl, .nothing q⟩

theorem completes_refuse (s : State) (q : Request) (r : RefusalReason) : Completes s q (s.refuse r) :=
  ⟨s.block.markRefused r, .refused r, rfl, .refused q r⟩

theorem completes_dramInit (s : State) (size : Nat) (base : Option Addr) :
    Completes s (.dramInit size base) (s.dramInit size base) := by
  cases hlive : s.block.dramLive with
  | true => rw [dramInit_of_live hlive]; exact completes_refuse ..
  | false =>
    obtain hfits | hover := le_or_gt ((base.getD Config.defaultBase).toNat + size) Config.addrSpace
    · rw [dramInit_of_fits hlive hfits]; exact ⟨_, _, rfl, .dramInit size base hfits⟩
    · rw [dramInit_of_overflow hlive hover]; exact completes_refuse ..

theorem completes_dramLoad (s : State) (w : Width) (a : Addr) : Completes s (.dramLoad w a) (s.dramLoad w a) := by
  cases hlive : s.block.dramLive with
  | false => rw [dramLoad_of_dead hlive]; exact completes_refuse ..
  | true =>
    cases hin : s.block.inBounds a.toNat w with
    | true => rw [dramLoad_of_inBounds hlive hin]; exact completes_respond ..
    | false => rw [dramLoad_of_outOfBounds hlive hin]; exact completes_respond ..

theorem completes_dramStore (s : State) (w : Width) (a : Addr) (v : Value) :
    Completes s (.dramStore w a v) (s.dramStore w a v) := by
  cases hlive : s.block.dramLive with
  | false => rw [dramStore_of_dead hlive]; exact completes_refuse ..
  | true =>
    cases hin : s.block.inBounds a.toNat w with
    | true => rw [dramStore_of_inBounds hlive hin]; exact ⟨_, _, rfl, .dramStore w a v hin⟩
    | false => rw [dramStore_of_outOfBounds hlive hin]; exact completes_respond ..

theorem completes_dramDestroy (s : State) : Completes s .dramDestroy s.dramDestroy := by
  cases hlive : s.block.dramLive with
  | true => rw [dramDestroy_of_live hlive]; exact ⟨_, _, rfl, .dramDestroy⟩
  | false => rw [dramDestroy_of_dead hlive]; exact completes_refuse ..

theorem completes_s1Decode (s : State) (base : Pc) (words : List Word) :
    Completes s (.s1Decode base words) (s.s1Decode base words) := by
  by_cases hlen : words.length = s.block.params.batchN
  · by_cases haligned : base.toNat % 4 = 0
    · rw [s1Decode_of_aligned hlen haligned]; exact ⟨_, _, rfl, .batch base words hlen haligned⟩
    · rw [s1Decode_of_misaligned hlen haligned]; exact ⟨_, _, rfl, .noBatch base words⟩
  · rw [s1Decode_of_length_ne hlen]; exact completes_refuse ..

theorem completes_s2New (s : State) : Completes s .s2New s.s2New := by
  cases hlive : s.block.s2Live with
  | true => rw [s2New_of_live hlive]; exact completes_refuse ..
  | false => rw [s2New_of_dead hlive]; exact ⟨_, _, rfl, .s2New⟩

theorem completes_s2Clear (s : State) : Completes s .s2Clear s.s2Clear := by
  cases hlive : s.block.s2Live with
  | true => rw [s2Clear_of_live hlive]; exact ⟨_, _, rfl, .s2Clear⟩
  | false => rw [s2Clear_of_dead hlive]; exact completes_refuse ..

theorem completes_s2Destroy (s : State) : Completes s .s2Destroy s.s2Destroy := by
  cases hlive : s.block.s2Live with
  | true => rw [s2Destroy_of_live hlive]; exact ⟨_, _, rfl, .s2Destroy⟩
  | false => rw [s2Destroy_of_dead hlive]; exact completes_refuse ..

theorem completes_s2Len (s : State) : Completes s .s2Len s.s2Len := by
  cases hlive : s.block.s2Live with
  | true => rw [s2Len_of_live hlive]; exact completes_respond ..
  | false => rw [s2Len_of_dead hlive]; exact completes_refuse ..

theorem completes_s2Read (s : State) (k : Nat) : Completes s (.s2Read k) (s.s2Read k) := by
  cases hlive : s.block.s2Live with
  | false => rw [s2Read_of_dead hlive]; exact completes_refuse ..
  | true =>
    cases hr : s.block.cols.entryAt k with
    | some r => rw [s2Read_of_entry hlive hr]; exact completes_respond ..
    | none => rw [s2Read_of_past hlive hr]; exact completes_refuse ..

theorem completes_s2ReadColumn (s : State) (which : Column) (k : Nat) :
    Completes s (.s2ReadColumn which k) (s.s2ReadColumn which k) := by
  cases hlive : s.block.s2Live with
  | false => rw [s2ReadColumn_of_dead hlive]; exact completes_refuse ..
  | true =>
    cases he : s.block.cols.elementAt which k with
    | some e => rw [s2ReadColumn_of_element hlive he]; exact completes_respond ..
    | none => rw [s2ReadColumn_of_past hlive he]; exact completes_refuse ..

theorem completes_decodeOne (s : State) (w : Word) : Completes s (.decodeOne w) (s.decodeOne w) := by
  cases hscalar : s.block.params.hasScalar with
  | true => rw [decodeOne_of_scalar hscalar]; exact completes_respond ..
  | false => rw [decodeOne_of_no_scalar hscalar]; exact completes_refuse ..

/-- A transaction completes at once, or it is an admissible `validate_and_pack`, whose call begins. -/
theorem transact_cases (s : State) (q : Request) : Completes s q (s.transact q) ∨
    (s.block.s2Live = true ∧ s.block.s1.valid = true ∧ s.transact q = { s with busy := true, lane := 0 }.afterLane) := by
  cases q with
  | validateAndPack =>
    rw [State.transact]
    cases hlive : s.block.s2Live with
    | false => rw [validateAndPack_of_dead hlive]; exact .inl (completes_refuse ..)
    | true =>
      cases hvalid : s.block.s1.valid with
      | false => rw [validateAndPack_of_no_batch hlive hvalid]; exact .inl (completes_refuse ..)
      | true => exact .inr ⟨rfl, rfl, validateAndPack_of_valid hlive hvalid⟩
  | dramInit size base => exact .inl (completes_dramInit s size base)
  | dramLoad w a => exact .inl (completes_dramLoad s w a)
  | dramStore w a v => exact .inl (completes_dramStore s w a v)
  | dramDestroy => exact .inl (completes_dramDestroy s)
  | s1Decode base words => exact .inl (completes_s1Decode s base words)
  | s2New => exact .inl (completes_s2New s)
  | s2Len => exact .inl (completes_s2Len s)
  | s2Read k => exact .inl (completes_s2Read s k)
  | s2ReadColumn which k => exact .inl (completes_s2ReadColumn s which k)
  | s2Clear => exact .inl (completes_s2Clear s)
  | s2Destroy => exact .inl (completes_s2Destroy s)
  | decodeOne w => exact .inl (completes_decodeOne s w)
  | unsupported => exact .inl (completes_refuse ..)

theorem transact_change (s : State) (q : Request) : BlockChange s.block q (s.transact q).block := by
  obtain ⟨b, r, ht, hb⟩ | ⟨-, -, ht⟩ := transact_cases s q
  · rw [ht]; exact hb
  · rw [ht, State_afterLane_block]; exact .nothing q

/-- A step changes the block as a lane does, not at all, or as the next transaction does. -/
theorem step_change (h : step s = .next t) : (s.busy = true ∧ LaneChange s.block t.block) ∨
    (s.busy = false ∧ s.requests = [] ∧ t = s) ∨
    (∃ q rest, s.busy = false ∧ s.requests = q :: rest ∧ t = { s with requests := rest }.transact q ∧
      BlockChange s.block q t.block) := by
  obtain ⟨-, ⟨hb, hlane⟩ | ⟨hb, hnil, rfl⟩ | ⟨q, rest, hb, hq, rfl⟩⟩ := step_cases h
  · exact .inl ⟨hb, laneStep_change hlane⟩
  · exact .inr (.inl ⟨hb, hnil, rfl⟩)
  · exact .inr (.inr ⟨q, rest, hb, hq, rfl, transact_change { s with requests := rest } q⟩)

end Sys2Proof.Machine
end

section
/-! What every step leaves unchanged, and what it never undoes (spec/10 R28, R30, spec/20 R80, spec/60 R346, R347). -/

namespace Sys2Proof.Machine

variable {s t : State} {b c : Block} {q : Request}

/-! ## DRAM and the decoder do not touch each other -/

/-- The region and its bytes are the same. -/
structure SameDram (b c : Block) : Prop where
  base : c.dramBase = b.dramBase
  size : c.dramSize = b.dramSize
  live : c.dramLive = b.dramLive
  gen : c.dramGen = b.dramGen
  mem : c.mem = b.mem

theorem LaneChange.sameDram (h : LaneChange b c) : SameDram b c := by
  cases h <;> exact ⟨rfl, rfl, rfl, rfl, rfl⟩

theorem sameDram_markRefused (b : Block) (r : RefusalReason) : SameDram b (b.markRefused r) := by
  rw [Block_markRefused_eq]
  exact ⟨rfl, rfl, rfl, rfl, rfl⟩

theorem BlockChange.sameDram (h : BlockChange b q c) (hq : q.isDram = false) : SameDram b c := by
  cases h with
  | refused => exact sameDram_markRefused ..
  | dramInit => cases hq
  | dramStore => cases hq
  | dramDestroy => cases hq
  | nothing | noBatch | batch | s2New | s2Clear | s2Destroy => exact ⟨rfl, rfl, rfl, rfl, rfl⟩

/-- Settles O24: neither a lane nor a transaction of the decoder changes the region, and its bytes are read from it. -/
theorem decodingNeverTouchesDram : Obligations.DecodingNeverTouchesDram := by
  intro s t hno hstep
  have hsame : SameDram s.block t.block := by
    obtain ⟨-, hlane⟩ | ⟨-, -, rfl⟩ | ⟨q, rest, hidle, hq, -, hchange⟩ := step_change hstep
    · exact hlane.sameDram
    · exact ⟨rfl, rfl, rfl, rfl, rfl⟩
    · obtain hbusy | hno := hno
      · rw [hidle] at hbusy; cases hbusy
      · exact hchange.sameDram (hno q rest hq)
  exact ⟨hsame.base, hsame.size, hsame.live, hsame.gen, hsame.mem, Block_byteAt_congr hsame.mem hsame.gen⟩

/-- The decoder's part of the block and its parameters are the same. -/
structure SameDecoder (b c : Block) : Prop where
  bank : c.s1 = b.s1
  cols : c.cols = b.cols
  diag : c.diag = b.diag
  live : c.s2Live = b.s2Live
  params : c.params = b.params
  fault : c.fault = b.fault

theorem sameDecoder_markRefused (b : Block) (r : RefusalReason) : SameDecoder b (b.markRefused r) := by
  rw [Block_markRefused_eq]
  exact ⟨rfl, rfl, rfl, rfl, rfl, rfl⟩

theorem BlockChange.sameDecoder (h : BlockChange b q c) (hq : q.isDram = true) : SameDecoder b c := by
  cases h with
  | refused => exact sameDecoder_markRefused ..
  | nothing | dramInit | dramStore | dramDestroy => exact ⟨rfl, rfl, rfl, rfl, rfl, rfl⟩
  | noBatch | batch | s2New | s2Clear | s2Destroy => cases hq

theorem busy_transact_of_isDram (hq : q.isDram = true) (s : State) : (s.transact q).busy = s.busy := by
  have hcompletes : Completes s q (s.transact q) := by
    cases q with
    | dramInit size base => exact completes_dramInit s size base
    | dramLoad w a => exact completes_dramLoad s w a
    | dramStore w a v => exact completes_dramStore s w a v
    | dramDestroy => exact completes_dramDestroy s
    | _ => cases hq
  obtain ⟨b, r, ht, -⟩ := hcompletes
  rw [ht]
  rfl

/-- Settles O23: a DRAM transaction changes the region only, and begins no call. -/
theorem dramTransactionsLeaveTheDecoderAlone : Obligations.DramTransactionsLeaveTheDecoderAlone := by
  intro s t q rest hs hq hstep
  cases (step_of_asks hs).symm.trans hstep
  have hsame : SameDecoder s.block _ := (transact_change { s with requests := rest } q).sameDecoder hq
  exact ⟨hsame.bank, hsame.cols, hsame.diag, hsame.live, hsame.params, hsame.fault,
    (busy_transact_of_isDram hq _).trans hs.idle⟩

/-! ## What no step undoes -/

/-- DIAG grew, a refusal mark stayed, and the parameters are the same. -/
structure Keeps (b c : Block) : Prop where
  diag : ∃ d, c.diag = b.diag ++ d
  refused : ∀ r, b.refused = some r → c.refused = some r
  params : c.params = b.params

theorem LaneChange.keeps (h : LaneChange b c) : Keeps b c := by
  cases h with
  | record d => exact ⟨⟨[d], rfl⟩, fun _ => id, rfl⟩
  | nothing | entry | fault => exact ⟨⟨[], (List.append_nil _).symm⟩, fun _ => id, rfl⟩

theorem BlockChange.keeps (h : BlockChange b q c) : Keeps b c := by
  cases h with
  | refused _ r =>
    rw [Block_markRefused_eq]
    exact ⟨⟨[], (List.append_nil _).symm⟩, fun r' hr => by simp [hr], rfl⟩
  | nothing | dramInit | dramStore | dramDestroy | noBatch | batch | s2New | s2Clear | s2Destroy =>
    exact ⟨⟨[], (List.append_nil _).symm⟩, fun _ => id, rfl⟩

/-- Settles O58: neither a lane nor a transaction undoes them, and a faulted state takes no step. -/
theorem diagAndMarksAreForGood : Obligations.DiagAndMarksAreForGood := by
  refine ⟨fun s t hstep => ?_, fun s f hf => by rw [step, hf]⟩
  have hkeeps : Keeps s.block t.block := by
    obtain ⟨-, hlane⟩ | ⟨-, -, rfl⟩ | ⟨q, rest, -, -, -, hchange⟩ := step_change hstep
    · exact hlane.keeps
    · exact ⟨⟨[], (List.append_nil _).symm⟩, fun _ => id, rfl⟩
    · exact hchange.keeps
  exact ⟨hkeeps.diag, hkeeps.refused, hkeeps.params, (step_cases hstep).1⟩

/-! ## The fault comes from full columns only -/

theorem LaneChange.fault_of_room (h : LaneChange b c) (hroom : b.full = false) : c.fault = b.fault := by
  cases h with
  | fault hfull => rw [hroom] at hfull; cases hfull
  | nothing | record | entry => rfl

theorem BlockChange.fault (h : BlockChange b q c) : c.fault = b.fault := by
  cases h with
  | refused => exact Block_markRefused_fault ..
  | nothing | dramInit | dramStore | dramDestroy | noBatch | batch | s2New | s2Clear | s2Destroy => rfl

theorem exists_step_eq_next (h : s.block.fault = none) : ∃ t, step s = .next t := by
  rw [step, h]
  cases s.busy with
  | true => exact exists_laneStep_eq_next s
  | false => cases s.requests <;> exact ⟨_, rfl⟩

/-- Settles O59: an unfaulted state takes a step, and unbounded columns always have room. -/
theorem unboundedColumnsNeverFault : Obligations.UnboundedColumnsNeverFault := by
  intro s hcap hf
  obtain ⟨t, hstep⟩ := exists_step_eq_next hf
  refine ⟨t, hstep, ?_⟩
  obtain ⟨-, hlane⟩ | ⟨-, -, rfl⟩ | ⟨q, rest, -, -, -, hchange⟩ := step_change hstep
  · exact (hlane.fault_of_room (full_of_unbounded hcap)).trans hf
  · exact hf
  · exact hchange.fault.trans hf

end Sys2Proof.Machine
end

section
/-! The invariant (spec/42 R199): an accepted lane's entry is one Stage-2 can record, and every step keeps `State.Inv`. -/

namespace Sys2Proof.Machine

/-! ## The entry of an accepted lane -/

section Entry

variable {w : Word} {op : OpTag}

theorem locOf_aligned {base : Pc} (h : base.toNat % 4 = 0) (i : Nat) : (locOf base i).toNat % 4 = 0 := by
  rw [locOf, BitVec.toNat_add, BitVec.toNat_ofNat]
  omega

theorem getLsbD_packOf_unused (cls : OpClass) (l : Lane) : (packOf cls l).getLsbD 15 = false := by
  cases cls <;> exact getLsbD_packRegs_unused ..

theorem unusedSlotsZero_packOf (op : OpTag) (l : Lane) : unusedSlotsZero op (packOf op.cls l) := by
  unfold unusedSlotsZero packOf
  cases op.cls with
  | rtype => trivial
  | ialu | load | jumpReg => exact getRs2_packRegs ..
  | store | branch => exact getRd_packRegs ..
  | jumpLink | upper => exact ⟨getRs1_packRegs .., getRs2_packRegs ..⟩
  | system => rfl

theorem getRd_packOf {cls : OpClass} (h : cls.writesRd = true) (l : Lane) : getRd (packOf cls l) = l.rd := by
  cases cls with
  | store | branch | system => cases h
  | rtype | ialu | load | jumpReg | jumpLink | upper => exact getRd_packRegs ..

theorem extractLsb'_immJ_funct3 (w : Word) : (immJ w).extractLsb' 12 3 = w.extractLsb' 12 3 :=
  (BitVec.extractLsb'_extractLsb'_of_le (by decide)).symm.trans (extractLsb'_jumpOffset_funct3 w)

theorem immInRange_immOf (h : op.matchesRow w = true) : immInRange op (immOf op.cls (extract w)) := by
  rw [matchesRow_iff] at h
  cases op
  case addi | xori | ori | andi | slli | srli | srai | slti | sltiu | lb | lh | lw | lbu | lhu | jalr => exact immI_bounds w
  case sb | sh | sw => exact immS_bounds w
  case beq | bne | blt | bge | bltu | bgeu => exact ⟨(immB_bounds w).1, (immB_bounds w).2, getLsbD_zero_immB w⟩
  case jal =>
    exact ⟨(immJ_bounds w).1, (immJ_bounds w).2, getLsbD_zero_immJ w,
      (extractLsb'_immJ_funct3 w).trans (h (12, 3) (by decide))⟩
  case lui | auipc => exact BitVec.extractLsb'_append_eq_right
  case ecall => exact immI_eq_zero_iff.mpr (h (20, 12) (by decide))
  case ebreak => exact immI_eq_one_iff.mpr (h (20, 12) (by decide))
  all_goals rfl

/-- R199, for the entry of one accepted lane. -/
theorem entryOk_of_classify {cls : OpClass} (hc : classify (extract w) = .accept op cls) {base : Pc}
    (hbase : base.toNat % 4 = 0) (i : Nat) :
    EntryOk (locOf base i) op (packOf cls (extract w)) (immOf cls (extract w)) := by
  obtain ⟨hrow, rfl, hrd⟩ := classify_eq_accept_iff.mp hc
  exact {
    locAligned := locOf_aligned hbase i
    topBitClear := getLsbD_packOf_unused ..
    slots := unusedSlotsZero_packOf ..
    noX0Write := fun hw => getRd_packOf hw (extract w) ▸ hrd hw
    imm := immInRange_immOf (matchesRow_of_rowOf hrow) }

end Entry

/-! ## The parts of the invariant, each by the fields it reads -/

variable {s t : State} {b c : Block} {q : Request}

theorem dramOk_of_sameDram (h : b.DramOk) (hsame : SameDram b c) : c.DramOk where
  canonical := by rw [hsame.mem]; exact h.canonical
  inside := by rw [hsame.mem, hsame.size]; exact h.inside
  region := by rw [hsame.base, hsame.size]; exact h.region

theorem bankOk_of_eq (h : b.BankOk) (hbank : c.s1 = b.s1) (hparams : c.params = b.params) : c.BankOk where
  full := by rw [hbank, hparams]; exact h.full
  extracted := by rw [hbank]; exact h.extracted
  aligned := by rw [hbank]; exact h.aligned

theorem columnsOk_of_eq (h : b.ColumnsOk) (hcols : c.cols = b.cols) (hparams : c.params = b.params) : c.ColumnsOk where
  lockstep := hcols ▸ h.lockstep
  entries := hcols ▸ h.entries
  capacity := by rw [hcols, hparams]; exact h.capacity

theorem columnsOk_of_empty (hcols : c.cols = Columns.empty) : c.ColumnsOk where
  lockstep := by rw [hcols]; exact ⟨rfl, rfl, rfl⟩
  entries := by rw [hcols]; exact nofun
  capacity := by rw [hcols]; exact fun _ _ => Nat.zero_le _

theorem dramOk_written (h : b.DramOk) {w : Width} {a : Nat} (hin : b.inBounds a w = true) (v : Value) :
    (b.written w a v).DramOk where
  canonical := Memory_wf_writeBytes _ _ _ h.canonical _
  inside x hx := by
    obtain ⟨-, hend⟩ := (inBounds_eq_true_iff b a w).mp hin
    obtain hold | ⟨-, hnew⟩ := Memory_mem_writeBytes _ _ _ x _ hx
    · exact h.inside x hold
    · exact hnew.trans_le hend
  region := h.region

theorem bankOk_batch {base : Pc} {words : List Word} (hlen : words.length = b.params.batchN) (halign : base.toNat % 4 = 0) :
    ({ b with s1 := ⟨true, base, words.map extract⟩ } : Block).BankOk where
  full := (List.length_map _).trans hlen
  extracted l hl := by
    obtain ⟨w, -, rfl⟩ := List.mem_map.mp hl
    rw [laneExtracted, extract_word]
  aligned _ := halign

theorem columnsOk_appendEntry (h : b.ColumnsOk) (hroom : b.full = false) {p : Pc} {o : OpTag} {r : Packed} {m : Imm}
    (hentry : EntryOk p o r m) : (b.appendEntry p o r m).ColumnsOk where
  lockstep :=
    { op := by simp [h.lockstep.op]
      regs := by simp [h.lockstep.regs]
      imm := by simp [h.lockstep.imm] }
  entries e he := by
    obtain ⟨hop, hregs, himm⟩ := h.lockstep
    have hzip : b.cols.regs.length = b.cols.imm.length := hregs.trans himm.symm
    simp only [Block_appendEntry_cols, Columns_append_loc, Columns_append_op, Columns_append_regs, Columns_append_imm] at he
    rw [List.zip_append hzip, List.zip_append (by simp [hop, hregs, himm]), List.zip_append (by simp [hop, hregs, himm]),
      List.mem_append] at he
    obtain he | he := he
    · exact h.entries e he
    · obtain rfl : e = (p, o, r, m) := by simpa using he
      exact hentry
  capacity cap hcap := by
    have := (full_eq_false_iff b).mp hroom cap hcap
    simpa [Columns.len] using this

/-! ## The block's part of the invariant -/

/-- What `State.Inv` says of the block alone. -/
structure Block.Ok (b : Block) : Prop where
  dram : b.DramOk
  bank : b.BankOk
  columns : b.ColumnsOk

theorem BlockChange.keeps_ok (h : BlockChange b q c) (hb : b.Ok) : c.Ok := by
  obtain ⟨hdram, hbank, hcols⟩ := hb
  cases h with
  | nothing => exact ⟨hdram, hbank, hcols⟩
  | refused _ r =>
    exact ⟨dramOk_of_sameDram hdram (sameDram_markRefused b r), bankOk_of_eq hbank (by simp) (by simp),
      columnsOk_of_eq hcols (by simp) (by simp)⟩
  | dramInit size base fits =>
    exact ⟨⟨rfl, nofun, fits⟩, bankOk_of_eq hbank rfl rfl, columnsOk_of_eq hcols rfl rfl⟩
  | dramStore w a v hin =>
    exact ⟨dramOk_written hdram hin v, bankOk_of_eq hbank rfl rfl, columnsOk_of_eq hcols rfl rfl⟩
  | dramDestroy =>
    exact ⟨⟨hdram.canonical, hdram.inside, hdram.region⟩, bankOk_of_eq hbank rfl rfl, columnsOk_of_eq hcols rfl rfl⟩
  | noBatch =>
    exact ⟨dramOk_of_sameDram hdram ⟨rfl, rfl, rfl, rfl, rfl⟩, ⟨hbank.full, hbank.extracted, nofun⟩,
      columnsOk_of_eq hcols rfl rfl⟩
  | batch base words hlen halign =>
    exact ⟨dramOk_of_sameDram hdram ⟨rfl, rfl, rfl, rfl, rfl⟩, bankOk_batch hlen halign, columnsOk_of_eq hcols rfl rfl⟩
  | s2New | s2Clear =>
    exact ⟨dramOk_of_sameDram hdram ⟨rfl, rfl, rfl, rfl, rfl⟩, bankOk_of_eq hbank rfl rfl, columnsOk_of_empty rfl⟩
  | s2Destroy =>
    exact ⟨dramOk_of_sameDram hdram ⟨rfl, rfl, rfl, rfl, rfl⟩, bankOk_of_eq hbank rfl rfl, columnsOk_of_eq hcols rfl rfl⟩

/-- A lane of a valid, extracted bank keeps the block's part of the invariant. -/
theorem meetLane_keeps_ok {l : Lane} (h : s.block.Ok) (hvalid : s.block.s1.valid = true)
    (hl : s.block.s1.lanes[s.lane]? = some l) : (s.meetLane l (classify l)).block.Ok := by
  obtain ⟨hdram, hbank, hcols⟩ := h
  have hx := hbank.extracted l (List.mem_of_getElem? hl)
  cases hc : classify l with
  | reject r =>
    exact ⟨dramOk_of_sameDram hdram ⟨rfl, rfl, rfl, rfl, rfl⟩, bankOk_of_eq hbank rfl rfl, columnsOk_of_eq hcols rfl rfl⟩
  | accept op cls =>
    rw [State.meetLane]
    obtain ⟨hroom, heq⟩ | ⟨-, heq⟩ := acceptLane_cases s op (packOf cls l) (immOf cls l) <;> rw [heq]
    · rw [laneExtracted] at hx
      rw [hx] at hc ⊢
      exact ⟨dramOk_of_sameDram hdram ⟨rfl, rfl, rfl, rfl, rfl⟩, bankOk_of_eq hbank rfl rfl,
        columnsOk_appendEntry hcols hroom (entryOk_of_classify hc (hbank.aligned hvalid) s.lane)⟩
    · exact ⟨dramOk_of_sameDram hdram ⟨rfl, rfl, rfl, rfl, rfl⟩, bankOk_of_eq hbank rfl rfl, columnsOk_of_eq hcols rfl rfl⟩

/-! ## The whole invariant -/

theorem inv_iff : s.Inv ↔ s.block.Ok ∧
    (s.busy = true → s.block.s2Live = true ∧ s.block.s1.valid = true ∧ s.lane < s.block.params.batchN) :=
  ⟨fun h => ⟨⟨h.dram, h.bank, h.columns⟩, h.call⟩, fun h => ⟨h.1.dram, h.1.bank, h.1.columns, h.2⟩⟩

/-- After a lane a call that goes on stands at a lane. -/
theorem inv_afterLane (h : s.block.Ok) (hlive : s.block.s2Live = true) (hvalid : s.block.s1.valid = true) :
    s.afterLane.Inv := by
  rw [inv_iff, State_afterLane_block]
  refine ⟨h, ?_⟩
  obtain ⟨f, -, heq⟩ | ⟨-, hlane, heq⟩ | ⟨-, -, heq⟩ := afterLane_cases s <;> rw [heq]
  · exact nofun
  · exact fun _ => ⟨hlive, hvalid, hlane⟩
  · exact nofun

theorem inv_of_laneStep (h : s.Inv) (hb : s.busy = true) (hstep : s.laneStep = .next t) : t.Inv := by
  obtain ⟨hok, hcall⟩ := inv_iff.mp h
  obtain ⟨hlive, hvalid, hlane⟩ := hcall hb
  obtain ⟨l, hl⟩ : ∃ l, s.block.s1.lanes[s.lane]? = some l :=
    ⟨_, List.getElem?_eq_getElem (hok.bank.full.symm ▸ hlane)⟩
  cases (laneStep_of_lane hl (hok.bank.extracted l (List.mem_of_getElem? hl))).symm.trans hstep
  have hsame : (s.meetLane l (classify l)).block.s2Live = s.block.s2Live ∧
      (s.meetLane l (classify l)).block.s1 = s.block.s1 := by
    cases classify l with
    | reject r => exact ⟨rfl, rfl⟩
    | accept op cls =>
      rw [State.meetLane]
      obtain ⟨-, heq⟩ | ⟨-, heq⟩ := acceptLane_cases s op (packOf cls l) (immOf cls l) <;> rw [heq] <;> exact ⟨rfl, rfl⟩
  exact inv_afterLane (meetLane_keeps_ok hok hvalid hl) (hsame.1.trans hlive) (hsame.2 ▸ hvalid)

theorem inv_transact (h : s.block.Ok) (hb : s.busy = false) (q : Request) : (s.transact q).Inv := by
  obtain ⟨b, r, ht, hchange⟩ | ⟨hlive, hvalid, ht⟩ := transact_cases s q
  · rw [ht, inv_iff]
    exact ⟨hchange.keeps_ok h, fun hbusy => absurd (hb.symm.trans hbusy) Bool.false_ne_true⟩
  · rw [ht]
    exact inv_afterLane h hlive hvalid

/-- Settles O57: a lane, a transaction and an idle step each keep it. -/
theorem stepKeepsTheInvariant : Obligations.StepKeepsTheInvariant := by
  intro s t hinv hstep
  obtain ⟨-, ⟨hb, hlane⟩ | ⟨-, -, rfl⟩ | ⟨q, rest, hb, -, rfl⟩⟩ := step_cases hstep
  · exact inv_of_laneStep hinv hb hlane
  · exact hinv
  · exact inv_transact (s := { s with requests := rest }) (inv_iff.mp hinv).1 hb q

/-- Settles O55: each field is the constructors' value, and an unwritten byte is its draw. -/
theorem resetIsTheConstructedBlock : Obligations.ResetIsTheConstructedBlock :=
  ⟨rfl, rfl, fun _ => rfl, rfl, rfl, rfl, rfl, rfl, rfl⟩

/-- Settles O56: nothing is written, the bank is four records of the zero word, and the columns are empty. -/
theorem resetSatisfiesTheInvariant : Obligations.ResetSatisfiesTheInvariant where
  dram := ⟨Memory_wf_reset, nofun, by decide⟩
  bank :=
    { full := List.length_replicate
      extracted := fun l hl => by
        rw [List.eq_of_mem_replicate hl, laneExtracted, extract_word]
      aligned := nofun }
  columns := columnsOk_of_empty rfl
  call := nofun

end Sys2Proof.Machine
end
